-- ==== Sys2Proof/Word.lean ====
section
/-! DEFINITION. The two word types of the hardware (spec/00_scope.md R8, R10). -/

namespace Sys2Proof

/-- An 8-bit register, a byte of memory, an opcode byte, an 8-bit immediate. -/
abbrev Byte := BitVec 8

/-- PC, SP, a register pair, an address, a 16-bit immediate. -/
abbrev Word := BitVec 16

/-- A background colour index or a shade (R59, R61). -/
abbrev Shade := BitVec 2

end Sys2Proof
end

