-- ==== Sys2Proof/Machine/Bits.lean ====
section
/-! DEFINITION. Bit fields, extension and byte order (spec/00_scope.md R10, R11; spec/20_memory.md R91). -/

namespace Sys2Proof

/-- `v[15:8]`. -/
def hi8 (v : Word) : Byte := v.extractLsb' 8 8

/-- `v[7:0]`. -/
def lo8 (v : Word) : Byte := v.extractLsb' 0 8

/-- `hi ++ lo`, the first operand in the high bits (R10). -/
def cat16 (hi lo : Byte) : Word := hi ++ lo

/-- `sext_16` (R10). -/
def sext16 (v : Byte) : Word := v.signExtend 16

/-- `zext_16` (R10). -/
def zext16 (v : Byte) : Word := v.setWidth 16

/-- The byte with bit `b` alone set. -/
def bit8 (b : Nat) : Byte := 1#8 <<< b

/-- A flag as the number 0 or 1. -/
def carryIn (c : Bool) : Nat := if c then 1 else 0

end Sys2Proof
end

