-- ==== Sys2Proof/Syntax.lean ====
section
/-! DEFINITION. The instructions: one constructor of `Instr` per row of spec/opcode_table.json, and
the operand names the rules select them by (spec/00_scope.md R16, spec/30_encoding.md R134 to R138).
A constructor carries only the immediate the encoding leaves free; registers, conditions, bit
numbers and restart targets are part of the row. -/

namespace Sys2Proof

/-- The registers an `r` field names (R16, R134). F is no operand of an `r` field (R30). -/
inductive Reg8 where
  | b | c | d | e | h | l | a
deriving DecidableEq, Repr

/-- What a 3-bit register field names (R134): a register, or the byte at the address in HL. -/
inductive Operand8 where
  | reg (r : Reg8)
  | atHL
deriving DecidableEq, Repr

/-- The 16-bit operands of `rp` (R135). -/
inductive Pair where
  | bc | de | hl | sp
deriving DecidableEq, Repr

/-- The 16-bit operands of PUSH and POP, `rp2` (R135). -/
inductive StackPair where
  | bc | de | hl | af
deriving DecidableEq, Repr

/-- The conditions (R136). -/
inductive Cond where
  | nz | z | nc | c
deriving DecidableEq, Repr

/-- The accumulator operations of spec/41_alu8.md section 2. -/
inductive AluOp where
  | add | adc | sub | sbc | and | xor | or | cp
deriving DecidableEq, Repr

/-- The CB rotates and shifts (R133). -/
inductive ShiftOp where
  | rlc | rrc | rl | rr | sla | sra | swap | srl
deriving DecidableEq, Repr

/-- One constructor per row of spec/opcode_table.json: first the rows with an immediate, then the
others, each in the table's order. `n` is an n8 or a8,
`e` an e8, `a` and `n : Word` an a16 or n16 (R137). -/
inductive Instr where
  | ldBC_n16 (n : Word)
  | ldB_n8 (n : Byte)
  | ldA16_SP (a : Word)
  | ldC_n8 (n : Byte)
  | ldDE_n16 (n : Word)
  | ldD_n8 (n : Byte)
  | jr (e : Byte)
  | ldE_n8 (n : Byte)
  | jrNZ (e : Byte)
  | ldHL_n16 (n : Word)
  | ldH_n8 (n : Byte)
  | jrZ (e : Byte)
  | ldL_n8 (n : Byte)
  | jrNC (e : Byte)
  | ldSP_n16 (n : Word)
  | ldAtHL_n8 (n : Byte)
  | jrC (e : Byte)
  | ldA_n8 (n : Byte)
  | jpNZ (a : Word)
  | jp (a : Word)
  | callNZ (a : Word)
  | add_n8 (n : Byte)
  | jpZ (a : Word)
  | callZ (a : Word)
  | call (a : Word)
  | adc_n8 (n : Byte)
  | jpNC (a : Word)
  | callNC (a : Word)
  | sub_n8 (n : Byte)
  | jpC (a : Word)
  | callC (a : Word)
  | sbc_n8 (n : Byte)
  | ldhA8_A (n : Byte)
  | and_n8 (n : Byte)
  | addSP_e8 (e : Byte)
  | ldA16_A (a : Word)
  | xor_n8 (n : Byte)
  | ldhA_a8 (n : Byte)
  | or_n8 (n : Byte)
  | ldHL_SPe8 (e : Byte)
  | ldA_a16 (a : Word)
  | cp_n8 (n : Byte)
  | nop
  | ldAtBC_A
  | incBC
  | incB
  | decB
  | rlca
  | addHL_BC
  | ldA_atBC
  | decBC
  | incC
  | decC
  | rrca
  | stop
  | ldAtDE_A
  | incDE
  | incD
  | decD
  | rla
  | addHL_DE
  | ldA_atDE
  | decDE
  | incE
  | decE
  | rra
  | ldHLI_A
  | incHL
  | incH
  | decH
  | daa
  | addHL_HL
  | ldA_HLI
  | decHL
  | incL
  | decL
  | cpl
  | ldHLD_A
  | incSP
  | incAtHL
  | decAtHL
  | scf
  | addHL_SP
  | ldA_HLD
  | decSP
  | incA
  | decA
  | ccf
  | ldB_B
  | ldB_C
  | ldB_D
  | ldB_E
  | ldB_H
  | ldB_L
  | ldB_atHL
  | ldB_A
  | ldC_B
  | ldC_C
  | ldC_D
  | ldC_E
  | ldC_H
  | ldC_L
  | ldC_atHL
  | ldC_A
  | ldD_B
  | ldD_C
  | ldD_D
  | ldD_E
  | ldD_H
  | ldD_L
  | ldD_atHL
  | ldD_A
  | ldE_B
  | ldE_C
  | ldE_D
  | ldE_E
  | ldE_H
  | ldE_L
  | ldE_atHL
  | ldE_A
  | ldH_B
  | ldH_C
  | ldH_D
  | ldH_E
  | ldH_H
  | ldH_L
  | ldH_atHL
  | ldH_A
  | ldL_B
  | ldL_C
  | ldL_D
  | ldL_E
  | ldL_H
  | ldL_L
  | ldL_atHL
  | ldL_A
  | ldAtHL_B
  | ldAtHL_C
  | ldAtHL_D
  | ldAtHL_E
  | ldAtHL_H
  | ldAtHL_L
  | halt
  | ldAtHL_A
  | ldA_B
  | ldA_C
  | ldA_D
  | ldA_E
  | ldA_H
  | ldA_L
  | ldA_atHL
  | ldA_A
  | add_B
  | add_C
  | add_D
  | add_E
  | add_H
  | add_L
  | add_atHL
  | add_A
  | adc_B
  | adc_C
  | adc_D
  | adc_E
  | adc_H
  | adc_L
  | adc_atHL
  | adc_A
  | sub_B
  | sub_C
  | sub_D
  | sub_E
  | sub_H
  | sub_L
  | sub_atHL
  | sub_A
  | sbc_B
  | sbc_C
  | sbc_D
  | sbc_E
  | sbc_H
  | sbc_L
  | sbc_atHL
  | sbc_A
  | and_B
  | and_C
  | and_D
  | and_E
  | and_H
  | and_L
  | and_atHL
  | and_A
  | xor_B
  | xor_C
  | xor_D
  | xor_E
  | xor_H
  | xor_L
  | xor_atHL
  | xor_A
  | or_B
  | or_C
  | or_D
  | or_E
  | or_H
  | or_L
  | or_atHL
  | or_A
  | cp_B
  | cp_C
  | cp_D
  | cp_E
  | cp_H
  | cp_L
  | cp_atHL
  | cp_A
  | retNZ
  | popBC
  | pushBC
  | rst00
  | retZ
  | ret
  | prefixCb
  | rst08
  | retNC
  | popDE
  | illegalD3
  | pushDE
  | rst10
  | retC
  | reti
  | illegalDB
  | illegalDD
  | rst18
  | popHL
  | ldhAtC_A
  | illegalE3
  | illegalE4
  | pushHL
  | rst20
  | jpHL
  | illegalEB
  | illegalEC
  | illegalED
  | rst28
  | popAF
  | ldhA_atC
  | di
  | illegalF4
  | pushAF
  | rst30
  | ldSP_HL
  | ei
  | illegalFC
  | illegalFD
  | rst38
  | rlc_B
  | rlc_C
  | rlc_D
  | rlc_E
  | rlc_H
  | rlc_L
  | rlc_atHL
  | rlc_A
  | rrc_B
  | rrc_C
  | rrc_D
  | rrc_E
  | rrc_H
  | rrc_L
  | rrc_atHL
  | rrc_A
  | rl_B
  | rl_C
  | rl_D
  | rl_E
  | rl_H
  | rl_L
  | rl_atHL
  | rl_A
  | rr_B
  | rr_C
  | rr_D
  | rr_E
  | rr_H
  | rr_L
  | rr_atHL
  | rr_A
  | sla_B
  | sla_C
  | sla_D
  | sla_E
  | sla_H
  | sla_L
  | sla_atHL
  | sla_A
  | sra_B
  | sra_C
  | sra_D
  | sra_E
  | sra_H
  | sra_L
  | sra_atHL
  | sra_A
  | swap_B
  | swap_C
  | swap_D
  | swap_E
  | swap_H
  | swap_L
  | swap_atHL
  | swap_A
  | srl_B
  | srl_C
  | srl_D
  | srl_E
  | srl_H
  | srl_L
  | srl_atHL
  | srl_A
  | bit0_B
  | bit0_C
  | bit0_D
  | bit0_E
  | bit0_H
  | bit0_L
  | bit0_atHL
  | bit0_A
  | bit1_B
  | bit1_C
  | bit1_D
  | bit1_E
  | bit1_H
  | bit1_L
  | bit1_atHL
  | bit1_A
  | bit2_B
  | bit2_C
  | bit2_D
  | bit2_E
  | bit2_H
  | bit2_L
  | bit2_atHL
  | bit2_A
  | bit3_B
  | bit3_C
  | bit3_D
  | bit3_E
  | bit3_H
  | bit3_L
  | bit3_atHL
  | bit3_A
  | bit4_B
  | bit4_C
  | bit4_D
  | bit4_E
  | bit4_H
  | bit4_L
  | bit4_atHL
  | bit4_A
  | bit5_B
  | bit5_C
  | bit5_D
  | bit5_E
  | bit5_H
  | bit5_L
  | bit5_atHL
  | bit5_A
  | bit6_B
  | bit6_C
  | bit6_D
  | bit6_E
  | bit6_H
  | bit6_L
  | bit6_atHL
  | bit6_A
  | bit7_B
  | bit7_C
  | bit7_D
  | bit7_E
  | bit7_H
  | bit7_L
  | bit7_atHL
  | bit7_A
  | res0_B
  | res0_C
  | res0_D
  | res0_E
  | res0_H
  | res0_L
  | res0_atHL
  | res0_A
  | res1_B
  | res1_C
  | res1_D
  | res1_E
  | res1_H
  | res1_L
  | res1_atHL
  | res1_A
  | res2_B
  | res2_C
  | res2_D
  | res2_E
  | res2_H
  | res2_L
  | res2_atHL
  | res2_A
  | res3_B
  | res3_C
  | res3_D
  | res3_E
  | res3_H
  | res3_L
  | res3_atHL
  | res3_A
  | res4_B
  | res4_C
  | res4_D
  | res4_E
  | res4_H
  | res4_L
  | res4_atHL
  | res4_A
  | res5_B
  | res5_C
  | res5_D
  | res5_E
  | res5_H
  | res5_L
  | res5_atHL
  | res5_A
  | res6_B
  | res6_C
  | res6_D
  | res6_E
  | res6_H
  | res6_L
  | res6_atHL
  | res6_A
  | res7_B
  | res7_C
  | res7_D
  | res7_E
  | res7_H
  | res7_L
  | res7_atHL
  | res7_A
  | set0_B
  | set0_C
  | set0_D
  | set0_E
  | set0_H
  | set0_L
  | set0_atHL
  | set0_A
  | set1_B
  | set1_C
  | set1_D
  | set1_E
  | set1_H
  | set1_L
  | set1_atHL
  | set1_A
  | set2_B
  | set2_C
  | set2_D
  | set2_E
  | set2_H
  | set2_L
  | set2_atHL
  | set2_A
  | set3_B
  | set3_C
  | set3_D
  | set3_E
  | set3_H
  | set3_L
  | set3_atHL
  | set3_A
  | set4_B
  | set4_C
  | set4_D
  | set4_E
  | set4_H
  | set4_L
  | set4_atHL
  | set4_A
  | set5_B
  | set5_C
  | set5_D
  | set5_E
  | set5_H
  | set5_L
  | set5_atHL
  | set5_A
  | set6_B
  | set6_C
  | set6_D
  | set6_E
  | set6_H
  | set6_L
  | set6_atHL
  | set6_A
  | set7_B
  | set7_C
  | set7_D
  | set7_E
  | set7_H
  | set7_L
  | set7_atHL
  | set7_A
deriving DecidableEq, Repr

end Sys2Proof
end

