-- ==== Sys2Proof/WellFormed.lean ====
section
/-! DEFINITION. Which terms of `Instr` are whole instructions. Every immediate fits its field by its
type, so the one check left is that of spec/30_encoding.md R130: 0xCB is always followed by exactly
one further byte, so the primary row PREFIX CB alone is no whole instruction. -/

namespace Sys2Proof

/-- The row PREFIX CB is the first byte of a two-byte instruction, not an instruction (R130, R145). -/
def Instr.isPrefixAlone (i : Instr) : Bool := decide (i = .prefixCb)

/-- A whole instruction, which the encoder writes and the decoder reads back. -/
def Instr.WellFormed (i : Instr) : Bool := !i.isPrefixAlone

end Sys2Proof
end

