-- ==== Sys2Proof/Decode.lean ====
section
/-! DEFINITION. The decoder, written from the opcode fields of spec/30_encoding.md R132 to R138, and
after it the encoder, written row by row from spec/opcode_table.json (R141, R144). Decoding is total:
every byte selects a row, the 11 illegal bytes among them (R140, R142); what is rejected, by name, is
a list of bytes that ends inside an instruction. -/

namespace Sys2Proof

/-! ### Choosing by an operand field -/

/-- The choice `r[k]` makes among eight values, in the order of R134. -/
def Operand8.pick {α : Type} (o : Operand8) (b c d e h l m a : α) : α :=
  match o with
  | .reg .b => b | .reg .c => c | .reg .d => d | .reg .e => e
  | .reg .h => h | .reg .l => l | .atHL => m | .reg .a => a

/-- The choice a 3-bit field makes among eight values. -/
def pick8 {α : Type} (k : BitVec 3) (v0 v1 v2 v3 v4 v5 v6 v7 : α) : α :=
  match k.toNat with
  | 0 => v0 | 1 => v1 | 2 => v2 | 3 => v3 | 4 => v4 | 5 => v5 | 6 => v6 | _ => v7

/-- The choice a 2-bit field makes among four values. -/
def pick4 {α : Type} (k : BitVec 2) (v0 v1 v2 v3 : α) : α :=
  match k.toNat with
  | 0 => v0 | 1 => v1 | 2 => v2 | _ => v3

def Pair.pick {α : Type} (p : Pair) (bc de hl sp : α) : α :=
  match p with
  | .bc => bc | .de => de | .hl => hl | .sp => sp

def StackPair.pick {α : Type} (p : StackPair) (bc de hl af : α) : α :=
  match p with
  | .bc => bc | .de => de | .hl => hl | .af => af

def Cond.pick {α : Type} (q : Cond) (nz z nc c : α) : α :=
  match q with
  | .nz => nz | .z => z | .nc => nc | .c => c

/-! ### The operand fields -/

/-- `r[k]` (R134). -/
def operand8 (k : BitVec 3) : Operand8 :=
  pick8 k (.reg .b) (.reg .c) (.reg .d) (.reg .e) (.reg .h) (.reg .l) .atHL (.reg .a)

/-- `rp[p]` (R135). -/
def pairOf (p : BitVec 2) : Pair := pick4 p .bc .de .hl .sp

/-- `rp2[p]` (R135). -/
def stackPairOf (p : BitVec 2) : StackPair := pick4 p .bc .de .hl .af

/-- `cc` (R136). -/
def condOf (k : BitVec 2) : Cond := pick4 k .nz .z .nc .c

/-- The operation field `ooo` of spec/41_alu8.md section 2. -/
def aluOpOf (k : BitVec 3) : AluOp := pick8 k .add .adc .sub .sbc .and .xor .or .cp

/-- The operation field of a CB byte of group 0 (R133). -/
def shiftOpOf (k : BitVec 3) : ShiftOp := pick8 k .rlc .rrc .rl .rr .sla .sra .swap .srl

/-! ### The rows, by their operands -/

/-- `LD r[y], r[z]` and HALT in the slot of `LD (HL),(HL)` (R132, R341). -/
def Instr.mkLoad (d s : Operand8) : Instr :=
  match d with
  | .reg .b => s.pick .ldB_B .ldB_C .ldB_D .ldB_E .ldB_H .ldB_L .ldB_atHL .ldB_A
  | .reg .c => s.pick .ldC_B .ldC_C .ldC_D .ldC_E .ldC_H .ldC_L .ldC_atHL .ldC_A
  | .reg .d => s.pick .ldD_B .ldD_C .ldD_D .ldD_E .ldD_H .ldD_L .ldD_atHL .ldD_A
  | .reg .e => s.pick .ldE_B .ldE_C .ldE_D .ldE_E .ldE_H .ldE_L .ldE_atHL .ldE_A
  | .reg .h => s.pick .ldH_B .ldH_C .ldH_D .ldH_E .ldH_H .ldH_L .ldH_atHL .ldH_A
  | .reg .l => s.pick .ldL_B .ldL_C .ldL_D .ldL_E .ldL_H .ldL_L .ldL_atHL .ldL_A
  | .atHL => s.pick .ldAtHL_B .ldAtHL_C .ldAtHL_D .ldAtHL_E .ldAtHL_H .ldAtHL_L .halt .ldAtHL_A
  | .reg .a => s.pick .ldA_B .ldA_C .ldA_D .ldA_E .ldA_H .ldA_L .ldA_atHL .ldA_A

/-- `LD r[y], n8` (R163, R166). -/
def Instr.mkLoadImm (d : Operand8) (n : Byte) : Instr :=
  d.pick (.ldB_n8 n) (.ldC_n8 n) (.ldD_n8 n) (.ldE_n8 n) (.ldH_n8 n) (.ldL_n8 n) (.ldAtHL_n8 n) (.ldA_n8 n)

/-- The accumulator operations on `r[z]` (spec/41_alu8.md section 2). -/
def Instr.mkAlu (op : AluOp) (s : Operand8) : Instr :=
  match op with
  | .add => s.pick .add_B .add_C .add_D .add_E .add_H .add_L .add_atHL .add_A
  | .adc => s.pick .adc_B .adc_C .adc_D .adc_E .adc_H .adc_L .adc_atHL .adc_A
  | .sub => s.pick .sub_B .sub_C .sub_D .sub_E .sub_H .sub_L .sub_atHL .sub_A
  | .sbc => s.pick .sbc_B .sbc_C .sbc_D .sbc_E .sbc_H .sbc_L .sbc_atHL .sbc_A
  | .and => s.pick .and_B .and_C .and_D .and_E .and_H .and_L .and_atHL .and_A
  | .xor => s.pick .xor_B .xor_C .xor_D .xor_E .xor_H .xor_L .xor_atHL .xor_A
  | .or => s.pick .or_B .or_C .or_D .or_E .or_H .or_L .or_atHL .or_A
  | .cp => s.pick .cp_B .cp_C .cp_D .cp_E .cp_H .cp_L .cp_atHL .cp_A

/-- The accumulator operations on n8 (spec/41_alu8.md section 2). -/
def Instr.mkAluImm (op : AluOp) (n : Byte) : Instr :=
  match op with
  | .add => .add_n8 n
  | .adc => .adc_n8 n
  | .sub => .sub_n8 n
  | .sbc => .sbc_n8 n
  | .and => .and_n8 n
  | .xor => .xor_n8 n
  | .or => .or_n8 n
  | .cp => .cp_n8 n

/-- `INC r[y]` (R230, R231). -/
def Instr.mkInc8 (d : Operand8) : Instr :=
  d.pick .incB .incC .incD .incE .incH .incL .incAtHL .incA

/-- `DEC r[y]` (R232, R233). -/
def Instr.mkDec8 (d : Operand8) : Instr :=
  d.pick .decB .decC .decD .decE .decH .decL .decAtHL .decA

/-- `LD rp[p], n16` (R181). -/
def Instr.mkLoadPair (p : Pair) (n : Word) : Instr :=
  p.pick (.ldBC_n16 n) (.ldDE_n16 n) (.ldHL_n16 n) (.ldSP_n16 n)

/-- `ADD HL, rp[p]` (R251). -/
def Instr.mkAddHL (p : Pair) : Instr := p.pick .addHL_BC .addHL_DE .addHL_HL .addHL_SP

/-- `INC rp[p]` (R252). -/
def Instr.mkInc16 (p : Pair) : Instr := p.pick .incBC .incDE .incHL .incSP

/-- `DEC rp[p]` (R253). -/
def Instr.mkDec16 (p : Pair) : Instr := p.pick .decBC .decDE .decHL .decSP

/-- `PUSH rp2[p]` (R184). -/
def Instr.mkPush (p : StackPair) : Instr := p.pick .pushBC .pushDE .pushHL .pushAF

/-- `POP rp2[p]` (R185, R186). -/
def Instr.mkPop (p : StackPair) : Instr := p.pick .popBC .popDE .popHL .popAF

/-- `JR cc, e8` (R315). -/
def Instr.mkJrIf (q : Cond) (e : Byte) : Instr := q.pick (.jrNZ e) (.jrZ e) (.jrNC e) (.jrC e)

/-- `JP cc, a16` (R312). -/
def Instr.mkJpIf (q : Cond) (a : Word) : Instr := q.pick (.jpNZ a) (.jpZ a) (.jpNC a) (.jpC a)

/-- `CALL cc, a16` (R317). -/
def Instr.mkCallIf (q : Cond) (a : Word) : Instr :=
  q.pick (.callNZ a) (.callZ a) (.callNC a) (.callC a)

/-- `RET cc` (R319). -/
def Instr.mkRetIf (q : Cond) : Instr := q.pick .retNZ .retZ .retNC .retC

/-- `RST t` (R321). -/
def Instr.mkRst (t : BitVec 3) : Instr :=
  pick8 t .rst00 .rst08 .rst10 .rst18 .rst20 .rst28 .rst30 .rst38

/-- The CB rotates and shifts on `r[z]` (R133). -/
def Instr.mkShift (op : ShiftOp) (s : Operand8) : Instr :=
  match op with
  | .rlc => s.pick .rlc_B .rlc_C .rlc_D .rlc_E .rlc_H .rlc_L .rlc_atHL .rlc_A
  | .rrc => s.pick .rrc_B .rrc_C .rrc_D .rrc_E .rrc_H .rrc_L .rrc_atHL .rrc_A
  | .rl => s.pick .rl_B .rl_C .rl_D .rl_E .rl_H .rl_L .rl_atHL .rl_A
  | .rr => s.pick .rr_B .rr_C .rr_D .rr_E .rr_H .rr_L .rr_atHL .rr_A
  | .sla => s.pick .sla_B .sla_C .sla_D .sla_E .sla_H .sla_L .sla_atHL .sla_A
  | .sra => s.pick .sra_B .sra_C .sra_D .sra_E .sra_H .sra_L .sra_atHL .sra_A
  | .swap => s.pick .swap_B .swap_C .swap_D .swap_E .swap_H .swap_L .swap_atHL .swap_A
  | .srl => s.pick .srl_B .srl_C .srl_D .srl_E .srl_H .srl_L .srl_atHL .srl_A

/-- `BIT b, r[z]` (R291, R292). -/
def Instr.mkBit (b : BitVec 3) (s : Operand8) : Instr :=
  pick8 b
    (s.pick .bit0_B .bit0_C .bit0_D .bit0_E .bit0_H .bit0_L .bit0_atHL .bit0_A)
    (s.pick .bit1_B .bit1_C .bit1_D .bit1_E .bit1_H .bit1_L .bit1_atHL .bit1_A)
    (s.pick .bit2_B .bit2_C .bit2_D .bit2_E .bit2_H .bit2_L .bit2_atHL .bit2_A)
    (s.pick .bit3_B .bit3_C .bit3_D .bit3_E .bit3_H .bit3_L .bit3_atHL .bit3_A)
    (s.pick .bit4_B .bit4_C .bit4_D .bit4_E .bit4_H .bit4_L .bit4_atHL .bit4_A)
    (s.pick .bit5_B .bit5_C .bit5_D .bit5_E .bit5_H .bit5_L .bit5_atHL .bit5_A)
    (s.pick .bit6_B .bit6_C .bit6_D .bit6_E .bit6_H .bit6_L .bit6_atHL .bit6_A)
    (s.pick .bit7_B .bit7_C .bit7_D .bit7_E .bit7_H .bit7_L .bit7_atHL .bit7_A)

/-- `RES b, r[z]` (R293, R294). -/
def Instr.mkRes (b : BitVec 3) (s : Operand8) : Instr :=
  pick8 b
    (s.pick .res0_B .res0_C .res0_D .res0_E .res0_H .res0_L .res0_atHL .res0_A)
    (s.pick .res1_B .res1_C .res1_D .res1_E .res1_H .res1_L .res1_atHL .res1_A)
    (s.pick .res2_B .res2_C .res2_D .res2_E .res2_H .res2_L .res2_atHL .res2_A)
    (s.pick .res3_B .res3_C .res3_D .res3_E .res3_H .res3_L .res3_atHL .res3_A)
    (s.pick .res4_B .res4_C .res4_D .res4_E .res4_H .res4_L .res4_atHL .res4_A)
    (s.pick .res5_B .res5_C .res5_D .res5_E .res5_H .res5_L .res5_atHL .res5_A)
    (s.pick .res6_B .res6_C .res6_D .res6_E .res6_H .res6_L .res6_atHL .res6_A)
    (s.pick .res7_B .res7_C .res7_D .res7_E .res7_H .res7_L .res7_atHL .res7_A)

/-- `SET b, r[z]` (R295, R296). -/
def Instr.mkSet (b : BitVec 3) (s : Operand8) : Instr :=
  pick8 b
    (s.pick .set0_B .set0_C .set0_D .set0_E .set0_H .set0_L .set0_atHL .set0_A)
    (s.pick .set1_B .set1_C .set1_D .set1_E .set1_H .set1_L .set1_atHL .set1_A)
    (s.pick .set2_B .set2_C .set2_D .set2_E .set2_H .set2_L .set2_atHL .set2_A)
    (s.pick .set3_B .set3_C .set3_D .set3_E .set3_H .set3_L .set3_atHL .set3_A)
    (s.pick .set4_B .set4_C .set4_D .set4_E .set4_H .set4_L .set4_atHL .set4_A)
    (s.pick .set5_B .set5_C .set5_D .set5_E .set5_H .set5_L .set5_atHL .set5_A)
    (s.pick .set6_B .set6_C .set6_D .set6_E .set6_H .set6_L .set6_atHL .set6_A)
    (s.pick .set7_B .set7_C .set7_D .set7_E .set7_H .set7_L .set7_atHL .set7_A)

/-! ### The primary table, by the fields of the opcode byte (R132) -/

/-- Block x = 0. -/
def decodeBlock0 (op n : Byte) (nn : Word) : Instr :=
  let y := op.extractLsb' 3 3
  let p := op.extractLsb' 4 2
  let q := op.getLsbD 3
  match (op.extractLsb' 0 3).toNat with
  | 0 =>
    pick8 y .nop (.ldA16_SP nn) .stop (.jr n)
      (.mkJrIf .nz n) (.mkJrIf .z n) (.mkJrIf .nc n) (.mkJrIf .c n)
  | 1 => if q then .mkAddHL (pairOf p) else .mkLoadPair (pairOf p) nn
  | 2 =>
    if q then pick4 p .ldA_atBC .ldA_atDE .ldA_HLI .ldA_HLD
    else pick4 p .ldAtBC_A .ldAtDE_A .ldHLI_A .ldHLD_A
  | 3 => if q then .mkDec16 (pairOf p) else .mkInc16 (pairOf p)
  | 4 => .mkInc8 (operand8 y)
  | 5 => .mkDec8 (operand8 y)
  | 6 => .mkLoadImm (operand8 y) n
  | _ => pick8 y .rlca .rrca .rla .rra .daa .cpl .scf .ccf

/-- Block x = 3, with the 11 bytes that have no table entry (R142) and PREFIX CB (R145). -/
def decodeBlock3 (op n : Byte) (nn : Word) : Instr :=
  let y := op.extractLsb' 3 3
  let p := op.extractLsb' 4 2
  let q := op.getLsbD 3
  let cc := condOf (op.extractLsb' 3 2)
  match (op.extractLsb' 0 3).toNat with
  | 0 =>
    pick8 y (.mkRetIf cc) (.mkRetIf cc) (.mkRetIf cc) (.mkRetIf cc)
      (.ldhA8_A n) (.addSP_e8 n) (.ldhA_a8 n) (.ldHL_SPe8 n)
  | 1 => if q then pick4 p .ret .reti .jpHL .ldSP_HL else .mkPop (stackPairOf p)
  | 2 =>
    pick8 y (.mkJpIf cc nn) (.mkJpIf cc nn) (.mkJpIf cc nn) (.mkJpIf cc nn)
      .ldhAtC_A (.ldA16_A nn) .ldhA_atC (.ldA_a16 nn)
  | 3 => pick8 y (.jp nn) .prefixCb .illegalD3 .illegalDB .illegalE3 .illegalEB .di .ei
  | 4 =>
    pick8 y (.mkCallIf cc nn) (.mkCallIf cc nn) (.mkCallIf cc nn) (.mkCallIf cc nn)
      .illegalE4 .illegalEC .illegalF4 .illegalFC
  | 5 => if q then pick4 p (.call nn) .illegalDD .illegalED .illegalFD else .mkPush (stackPairOf p)
  | 6 => .mkAluImm (aluOpOf y) n
  | _ => .mkRst y

/-- The row of the primary table for an opcode byte, with the operand bytes `b1` and `b2` that follow
it where the row takes them (R131, R132, R137, R140). -/
def decodePrimary (op b1 b2 : Byte) : Instr :=
  match (op.extractLsb' 6 2).toNat with
  | 0 => decodeBlock0 op b1 (cat16 b2 b1)
  | 1 => .mkLoad (operand8 (op.extractLsb' 3 3)) (operand8 (op.extractLsb' 0 3))
  | 2 => .mkAlu (aluOpOf (op.extractLsb' 3 3)) (operand8 (op.extractLsb' 0 3))
  | _ => decodeBlock3 op b1 (cat16 b2 b1)

/-- The row of the CB table for the byte after 0xCB (R133, R144). -/
def decodeCb (c : Byte) : Instr :=
  let y := c.extractLsb' 3 3
  let r := operand8 (c.extractLsb' 0 3)
  pick4 (c.extractLsb' 6 2) (.mkShift (shiftOpOf y) r) (.mkBit y r) (.mkRes y r) (.mkSet y r)

/-! ### Lengths and whole instructions -/

/-- The opcodes of format F3 (R131, R141): two operand bytes. -/
def threeByteOpcodes : List Byte :=
  [0x01, 0x08, 0x11, 0x21, 0x31, 0xC2, 0xC3, 0xC4, 0xCA, 0xCC, 0xCD, 0xD2,
   0xD4, 0xDA, 0xDC, 0xEA, 0xFA]

/-- The opcodes of formats F1 and F2 whose second byte is fetched (R131, R141): every two-byte row but
STOP, which is refused at its opcode (R342, R143). -/
def twoByteOpcodes : List Byte :=
  [0x06, 0x0E, 0x16, 0x18, 0x1E, 0x20, 0x26, 0x28, 0x2E, 0x30, 0x36, 0x38,
   0x3E, 0xC6, 0xCB, 0xCE, 0xD6, 0xDE, 0xE0, 0xE6, 0xE8, 0xEE, 0xF0, 0xF6,
   0xF8, 0xFE]

/-- How many bytes an instruction fetches after its opcode (R130): the opcode alone decides. -/
def operandBytes (op : Byte) : Nat :=
  if op ∈ threeByteOpcodes then 2 else if op ∈ twoByteOpcodes then 1 else 0

/-- The instruction an opcode and its fetched operand bytes make: 0xCB selects the CB table (R145). -/
def assemble (op b1 b2 : Byte) : Instr :=
  if op = 0xCB then decodeCb b1 else decodePrimary op b1 b2

/-- Why a list of bytes holds no instruction. -/
inductive DecodeError where
  /-- The list is empty. -/
  | noBytes
  /-- The list ends before the operand bytes of this opcode, which takes `need` of them. -/
  | missingOperand (op : Byte) (need : Nat)
deriving DecidableEq, Repr

/-- The first instruction of a list of bytes and the bytes after it (R130, R140). STOP's second byte
belongs to its encoding whatever it is, and need not be there (R131, R143). -/
def decode : List Byte → Except DecodeError (Instr × List Byte)
  | [] => .error .noBytes
  | op :: rest =>
    match operandBytes op, rest with
    | 0, rest => .ok (assemble op 0 0, if op = 0x10 then rest.drop 1 else rest)
    | 1, b1 :: rest => .ok (assemble op b1 0, rest)
    | 2, b1 :: b2 :: rest => .ok (assemble op b1 b2, rest)
    | need, _ => .error (.missingOperand op need)

/-- The bytes a number of spec/opcode_table.json stands for, first byte first, the operand bytes that
the number leaves out being 0. The table writes a CB row as `0xCB ++ c` (spec/30_encoding.md, head),
so a 16-bit number whose high byte is 0xCB has its first byte there; every other number has its first
byte in bits 7..0 (log 10). -/
def tableBytes (nbits w : Nat) : List Byte :=
  let w := w % 2 ^ nbits
  let b0 : Byte := .ofNat 8 w
  let b1 : Byte := .ofNat 8 (w / 256)
  let b2 : Byte := .ofNat 8 (w / 65536)
  if nbits = 16 ∧ b1 = 0xCB then [b1, b0, b2] else [b0, b1, b2]

/-- The row the decoder reads from a number of spec/opcode_table.json. A number of 8 bits is an opcode
byte, whose row is that of the primary table: so 0xCB alone is the row PREFIX CB (R345), and the
16-bit numbers are those of the CB table (log 10). -/
def decodeTableWord (nbits w : Nat) : Option Instr :=
  if nbits ≤ 8 then some (decodePrimary (.ofNat 8 w) 0 0)
  else
    match decode (tableBytes nbits w) with
    | .ok (i, _) => some i
    | .error _ => none

/-! ### The encoder -/

/-- The bytes of an instruction, row by row from spec/opcode_table.json, first byte first; a 16-bit
operand has its low byte first (R137). STOP's second byte is 0 (R143, log 9). The row PREFIX CB gives
its one byte. -/
def encode : Instr → List Byte
  | .nop => [0x00]
  | .ldBC_n16 n => [0x01, lo8 n, hi8 n]
  | .ldAtBC_A => [0x02]
  | .incBC => [0x03]
  | .incB => [0x04]
  | .decB => [0x05]
  | .ldB_n8 n => [0x06, n]
  | .rlca => [0x07]
  | .ldA16_SP a => [0x08, lo8 a, hi8 a]
  | .addHL_BC => [0x09]
  | .ldA_atBC => [0x0A]
  | .decBC => [0x0B]
  | .incC => [0x0C]
  | .decC => [0x0D]
  | .ldC_n8 n => [0x0E, n]
  | .rrca => [0x0F]
  | .stop => [0x10, 0x00]
  | .ldDE_n16 n => [0x11, lo8 n, hi8 n]
  | .ldAtDE_A => [0x12]
  | .incDE => [0x13]
  | .incD => [0x14]
  | .decD => [0x15]
  | .ldD_n8 n => [0x16, n]
  | .rla => [0x17]
  | .jr e => [0x18, e]
  | .addHL_DE => [0x19]
  | .ldA_atDE => [0x1A]
  | .decDE => [0x1B]
  | .incE => [0x1C]
  | .decE => [0x1D]
  | .ldE_n8 n => [0x1E, n]
  | .rra => [0x1F]
  | .jrNZ e => [0x20, e]
  | .ldHL_n16 n => [0x21, lo8 n, hi8 n]
  | .ldHLI_A => [0x22]
  | .incHL => [0x23]
  | .incH => [0x24]
  | .decH => [0x25]
  | .ldH_n8 n => [0x26, n]
  | .daa => [0x27]
  | .jrZ e => [0x28, e]
  | .addHL_HL => [0x29]
  | .ldA_HLI => [0x2A]
  | .decHL => [0x2B]
  | .incL => [0x2C]
  | .decL => [0x2D]
  | .ldL_n8 n => [0x2E, n]
  | .cpl => [0x2F]
  | .jrNC e => [0x30, e]
  | .ldSP_n16 n => [0x31, lo8 n, hi8 n]
  | .ldHLD_A => [0x32]
  | .incSP => [0x33]
  | .incAtHL => [0x34]
  | .decAtHL => [0x35]
  | .ldAtHL_n8 n => [0x36, n]
  | .scf => [0x37]
  | .jrC e => [0x38, e]
  | .addHL_SP => [0x39]
  | .ldA_HLD => [0x3A]
  | .decSP => [0x3B]
  | .incA => [0x3C]
  | .decA => [0x3D]
  | .ldA_n8 n => [0x3E, n]
  | .ccf => [0x3F]
  | .ldB_B => [0x40]
  | .ldB_C => [0x41]
  | .ldB_D => [0x42]
  | .ldB_E => [0x43]
  | .ldB_H => [0x44]
  | .ldB_L => [0x45]
  | .ldB_atHL => [0x46]
  | .ldB_A => [0x47]
  | .ldC_B => [0x48]
  | .ldC_C => [0x49]
  | .ldC_D => [0x4A]
  | .ldC_E => [0x4B]
  | .ldC_H => [0x4C]
  | .ldC_L => [0x4D]
  | .ldC_atHL => [0x4E]
  | .ldC_A => [0x4F]
  | .ldD_B => [0x50]
  | .ldD_C => [0x51]
  | .ldD_D => [0x52]
  | .ldD_E => [0x53]
  | .ldD_H => [0x54]
  | .ldD_L => [0x55]
  | .ldD_atHL => [0x56]
  | .ldD_A => [0x57]
  | .ldE_B => [0x58]
  | .ldE_C => [0x59]
  | .ldE_D => [0x5A]
  | .ldE_E => [0x5B]
  | .ldE_H => [0x5C]
  | .ldE_L => [0x5D]
  | .ldE_atHL => [0x5E]
  | .ldE_A => [0x5F]
  | .ldH_B => [0x60]
  | .ldH_C => [0x61]
  | .ldH_D => [0x62]
  | .ldH_E => [0x63]
  | .ldH_H => [0x64]
  | .ldH_L => [0x65]
  | .ldH_atHL => [0x66]
  | .ldH_A => [0x67]
  | .ldL_B => [0x68]
  | .ldL_C => [0x69]
  | .ldL_D => [0x6A]
  | .ldL_E => [0x6B]
  | .ldL_H => [0x6C]
  | .ldL_L => [0x6D]
  | .ldL_atHL => [0x6E]
  | .ldL_A => [0x6F]
  | .ldAtHL_B => [0x70]
  | .ldAtHL_C => [0x71]
  | .ldAtHL_D => [0x72]
  | .ldAtHL_E => [0x73]
  | .ldAtHL_H => [0x74]
  | .ldAtHL_L => [0x75]
  | .halt => [0x76]
  | .ldAtHL_A => [0x77]
  | .ldA_B => [0x78]
  | .ldA_C => [0x79]
  | .ldA_D => [0x7A]
  | .ldA_E => [0x7B]
  | .ldA_H => [0x7C]
  | .ldA_L => [0x7D]
  | .ldA_atHL => [0x7E]
  | .ldA_A => [0x7F]
  | .add_B => [0x80]
  | .add_C => [0x81]
  | .add_D => [0x82]
  | .add_E => [0x83]
  | .add_H => [0x84]
  | .add_L => [0x85]
  | .add_atHL => [0x86]
  | .add_A => [0x87]
  | .adc_B => [0x88]
  | .adc_C => [0x89]
  | .adc_D => [0x8A]
  | .adc_E => [0x8B]
  | .adc_H => [0x8C]
  | .adc_L => [0x8D]
  | .adc_atHL => [0x8E]
  | .adc_A => [0x8F]
  | .sub_B => [0x90]
  | .sub_C => [0x91]
  | .sub_D => [0x92]
  | .sub_E => [0x93]
  | .sub_H => [0x94]
  | .sub_L => [0x95]
  | .sub_atHL => [0x96]
  | .sub_A => [0x97]
  | .sbc_B => [0x98]
  | .sbc_C => [0x99]
  | .sbc_D => [0x9A]
  | .sbc_E => [0x9B]
  | .sbc_H => [0x9C]
  | .sbc_L => [0x9D]
  | .sbc_atHL => [0x9E]
  | .sbc_A => [0x9F]
  | .and_B => [0xA0]
  | .and_C => [0xA1]
  | .and_D => [0xA2]
  | .and_E => [0xA3]
  | .and_H => [0xA4]
  | .and_L => [0xA5]
  | .and_atHL => [0xA6]
  | .and_A => [0xA7]
  | .xor_B => [0xA8]
  | .xor_C => [0xA9]
  | .xor_D => [0xAA]
  | .xor_E => [0xAB]
  | .xor_H => [0xAC]
  | .xor_L => [0xAD]
  | .xor_atHL => [0xAE]
  | .xor_A => [0xAF]
  | .or_B => [0xB0]
  | .or_C => [0xB1]
  | .or_D => [0xB2]
  | .or_E => [0xB3]
  | .or_H => [0xB4]
  | .or_L => [0xB5]
  | .or_atHL => [0xB6]
  | .or_A => [0xB7]
  | .cp_B => [0xB8]
  | .cp_C => [0xB9]
  | .cp_D => [0xBA]
  | .cp_E => [0xBB]
  | .cp_H => [0xBC]
  | .cp_L => [0xBD]
  | .cp_atHL => [0xBE]
  | .cp_A => [0xBF]
  | .retNZ => [0xC0]
  | .popBC => [0xC1]
  | .jpNZ a => [0xC2, lo8 a, hi8 a]
  | .jp a => [0xC3, lo8 a, hi8 a]
  | .callNZ a => [0xC4, lo8 a, hi8 a]
  | .pushBC => [0xC5]
  | .add_n8 n => [0xC6, n]
  | .rst00 => [0xC7]
  | .retZ => [0xC8]
  | .ret => [0xC9]
  | .jpZ a => [0xCA, lo8 a, hi8 a]
  | .prefixCb => [0xCB]
  | .callZ a => [0xCC, lo8 a, hi8 a]
  | .call a => [0xCD, lo8 a, hi8 a]
  | .adc_n8 n => [0xCE, n]
  | .rst08 => [0xCF]
  | .retNC => [0xD0]
  | .popDE => [0xD1]
  | .jpNC a => [0xD2, lo8 a, hi8 a]
  | .illegalD3 => [0xD3]
  | .callNC a => [0xD4, lo8 a, hi8 a]
  | .pushDE => [0xD5]
  | .sub_n8 n => [0xD6, n]
  | .rst10 => [0xD7]
  | .retC => [0xD8]
  | .reti => [0xD9]
  | .jpC a => [0xDA, lo8 a, hi8 a]
  | .illegalDB => [0xDB]
  | .callC a => [0xDC, lo8 a, hi8 a]
  | .illegalDD => [0xDD]
  | .sbc_n8 n => [0xDE, n]
  | .rst18 => [0xDF]
  | .ldhA8_A n => [0xE0, n]
  | .popHL => [0xE1]
  | .ldhAtC_A => [0xE2]
  | .illegalE3 => [0xE3]
  | .illegalE4 => [0xE4]
  | .pushHL => [0xE5]
  | .and_n8 n => [0xE6, n]
  | .rst20 => [0xE7]
  | .addSP_e8 e => [0xE8, e]
  | .jpHL => [0xE9]
  | .ldA16_A a => [0xEA, lo8 a, hi8 a]
  | .illegalEB => [0xEB]
  | .illegalEC => [0xEC]
  | .illegalED => [0xED]
  | .xor_n8 n => [0xEE, n]
  | .rst28 => [0xEF]
  | .ldhA_a8 n => [0xF0, n]
  | .popAF => [0xF1]
  | .ldhA_atC => [0xF2]
  | .di => [0xF3]
  | .illegalF4 => [0xF4]
  | .pushAF => [0xF5]
  | .or_n8 n => [0xF6, n]
  | .rst30 => [0xF7]
  | .ldHL_SPe8 e => [0xF8, e]
  | .ldSP_HL => [0xF9]
  | .ldA_a16 a => [0xFA, lo8 a, hi8 a]
  | .ei => [0xFB]
  | .illegalFC => [0xFC]
  | .illegalFD => [0xFD]
  | .cp_n8 n => [0xFE, n]
  | .rst38 => [0xFF]
  | .rlc_B => [0xCB, 0x00]
  | .rlc_C => [0xCB, 0x01]
  | .rlc_D => [0xCB, 0x02]
  | .rlc_E => [0xCB, 0x03]
  | .rlc_H => [0xCB, 0x04]
  | .rlc_L => [0xCB, 0x05]
  | .rlc_atHL => [0xCB, 0x06]
  | .rlc_A => [0xCB, 0x07]
  | .rrc_B => [0xCB, 0x08]
  | .rrc_C => [0xCB, 0x09]
  | .rrc_D => [0xCB, 0x0A]
  | .rrc_E => [0xCB, 0x0B]
  | .rrc_H => [0xCB, 0x0C]
  | .rrc_L => [0xCB, 0x0D]
  | .rrc_atHL => [0xCB, 0x0E]
  | .rrc_A => [0xCB, 0x0F]
  | .rl_B => [0xCB, 0x10]
  | .rl_C => [0xCB, 0x11]
  | .rl_D => [0xCB, 0x12]
  | .rl_E => [0xCB, 0x13]
  | .rl_H => [0xCB, 0x14]
  | .rl_L => [0xCB, 0x15]
  | .rl_atHL => [0xCB, 0x16]
  | .rl_A => [0xCB, 0x17]
  | .rr_B => [0xCB, 0x18]
  | .rr_C => [0xCB, 0x19]
  | .rr_D => [0xCB, 0x1A]
  | .rr_E => [0xCB, 0x1B]
  | .rr_H => [0xCB, 0x1C]
  | .rr_L => [0xCB, 0x1D]
  | .rr_atHL => [0xCB, 0x1E]
  | .rr_A => [0xCB, 0x1F]
  | .sla_B => [0xCB, 0x20]
  | .sla_C => [0xCB, 0x21]
  | .sla_D => [0xCB, 0x22]
  | .sla_E => [0xCB, 0x23]
  | .sla_H => [0xCB, 0x24]
  | .sla_L => [0xCB, 0x25]
  | .sla_atHL => [0xCB, 0x26]
  | .sla_A => [0xCB, 0x27]
  | .sra_B => [0xCB, 0x28]
  | .sra_C => [0xCB, 0x29]
  | .sra_D => [0xCB, 0x2A]
  | .sra_E => [0xCB, 0x2B]
  | .sra_H => [0xCB, 0x2C]
  | .sra_L => [0xCB, 0x2D]
  | .sra_atHL => [0xCB, 0x2E]
  | .sra_A => [0xCB, 0x2F]
  | .swap_B => [0xCB, 0x30]
  | .swap_C => [0xCB, 0x31]
  | .swap_D => [0xCB, 0x32]
  | .swap_E => [0xCB, 0x33]
  | .swap_H => [0xCB, 0x34]
  | .swap_L => [0xCB, 0x35]
  | .swap_atHL => [0xCB, 0x36]
  | .swap_A => [0xCB, 0x37]
  | .srl_B => [0xCB, 0x38]
  | .srl_C => [0xCB, 0x39]
  | .srl_D => [0xCB, 0x3A]
  | .srl_E => [0xCB, 0x3B]
  | .srl_H => [0xCB, 0x3C]
  | .srl_L => [0xCB, 0x3D]
  | .srl_atHL => [0xCB, 0x3E]
  | .srl_A => [0xCB, 0x3F]
  | .bit0_B => [0xCB, 0x40]
  | .bit0_C => [0xCB, 0x41]
  | .bit0_D => [0xCB, 0x42]
  | .bit0_E => [0xCB, 0x43]
  | .bit0_H => [0xCB, 0x44]
  | .bit0_L => [0xCB, 0x45]
  | .bit0_atHL => [0xCB, 0x46]
  | .bit0_A => [0xCB, 0x47]
  | .bit1_B => [0xCB, 0x48]
  | .bit1_C => [0xCB, 0x49]
  | .bit1_D => [0xCB, 0x4A]
  | .bit1_E => [0xCB, 0x4B]
  | .bit1_H => [0xCB, 0x4C]
  | .bit1_L => [0xCB, 0x4D]
  | .bit1_atHL => [0xCB, 0x4E]
  | .bit1_A => [0xCB, 0x4F]
  | .bit2_B => [0xCB, 0x50]
  | .bit2_C => [0xCB, 0x51]
  | .bit2_D => [0xCB, 0x52]
  | .bit2_E => [0xCB, 0x53]
  | .bit2_H => [0xCB, 0x54]
  | .bit2_L => [0xCB, 0x55]
  | .bit2_atHL => [0xCB, 0x56]
  | .bit2_A => [0xCB, 0x57]
  | .bit3_B => [0xCB, 0x58]
  | .bit3_C => [0xCB, 0x59]
  | .bit3_D => [0xCB, 0x5A]
  | .bit3_E => [0xCB, 0x5B]
  | .bit3_H => [0xCB, 0x5C]
  | .bit3_L => [0xCB, 0x5D]
  | .bit3_atHL => [0xCB, 0x5E]
  | .bit3_A => [0xCB, 0x5F]
  | .bit4_B => [0xCB, 0x60]
  | .bit4_C => [0xCB, 0x61]
  | .bit4_D => [0xCB, 0x62]
  | .bit4_E => [0xCB, 0x63]
  | .bit4_H => [0xCB, 0x64]
  | .bit4_L => [0xCB, 0x65]
  | .bit4_atHL => [0xCB, 0x66]
  | .bit4_A => [0xCB, 0x67]
  | .bit5_B => [0xCB, 0x68]
  | .bit5_C => [0xCB, 0x69]
  | .bit5_D => [0xCB, 0x6A]
  | .bit5_E => [0xCB, 0x6B]
  | .bit5_H => [0xCB, 0x6C]
  | .bit5_L => [0xCB, 0x6D]
  | .bit5_atHL => [0xCB, 0x6E]
  | .bit5_A => [0xCB, 0x6F]
  | .bit6_B => [0xCB, 0x70]
  | .bit6_C => [0xCB, 0x71]
  | .bit6_D => [0xCB, 0x72]
  | .bit6_E => [0xCB, 0x73]
  | .bit6_H => [0xCB, 0x74]
  | .bit6_L => [0xCB, 0x75]
  | .bit6_atHL => [0xCB, 0x76]
  | .bit6_A => [0xCB, 0x77]
  | .bit7_B => [0xCB, 0x78]
  | .bit7_C => [0xCB, 0x79]
  | .bit7_D => [0xCB, 0x7A]
  | .bit7_E => [0xCB, 0x7B]
  | .bit7_H => [0xCB, 0x7C]
  | .bit7_L => [0xCB, 0x7D]
  | .bit7_atHL => [0xCB, 0x7E]
  | .bit7_A => [0xCB, 0x7F]
  | .res0_B => [0xCB, 0x80]
  | .res0_C => [0xCB, 0x81]
  | .res0_D => [0xCB, 0x82]
  | .res0_E => [0xCB, 0x83]
  | .res0_H => [0xCB, 0x84]
  | .res0_L => [0xCB, 0x85]
  | .res0_atHL => [0xCB, 0x86]
  | .res0_A => [0xCB, 0x87]
  | .res1_B => [0xCB, 0x88]
  | .res1_C => [0xCB, 0x89]
  | .res1_D => [0xCB, 0x8A]
  | .res1_E => [0xCB, 0x8B]
  | .res1_H => [0xCB, 0x8C]
  | .res1_L => [0xCB, 0x8D]
  | .res1_atHL => [0xCB, 0x8E]
  | .res1_A => [0xCB, 0x8F]
  | .res2_B => [0xCB, 0x90]
  | .res2_C => [0xCB, 0x91]
  | .res2_D => [0xCB, 0x92]
  | .res2_E => [0xCB, 0x93]
  | .res2_H => [0xCB, 0x94]
  | .res2_L => [0xCB, 0x95]
  | .res2_atHL => [0xCB, 0x96]
  | .res2_A => [0xCB, 0x97]
  | .res3_B => [0xCB, 0x98]
  | .res3_C => [0xCB, 0x99]
  | .res3_D => [0xCB, 0x9A]
  | .res3_E => [0xCB, 0x9B]
  | .res3_H => [0xCB, 0x9C]
  | .res3_L => [0xCB, 0x9D]
  | .res3_atHL => [0xCB, 0x9E]
  | .res3_A => [0xCB, 0x9F]
  | .res4_B => [0xCB, 0xA0]
  | .res4_C => [0xCB, 0xA1]
  | .res4_D => [0xCB, 0xA2]
  | .res4_E => [0xCB, 0xA3]
  | .res4_H => [0xCB, 0xA4]
  | .res4_L => [0xCB, 0xA5]
  | .res4_atHL => [0xCB, 0xA6]
  | .res4_A => [0xCB, 0xA7]
  | .res5_B => [0xCB, 0xA8]
  | .res5_C => [0xCB, 0xA9]
  | .res5_D => [0xCB, 0xAA]
  | .res5_E => [0xCB, 0xAB]
  | .res5_H => [0xCB, 0xAC]
  | .res5_L => [0xCB, 0xAD]
  | .res5_atHL => [0xCB, 0xAE]
  | .res5_A => [0xCB, 0xAF]
  | .res6_B => [0xCB, 0xB0]
  | .res6_C => [0xCB, 0xB1]
  | .res6_D => [0xCB, 0xB2]
  | .res6_E => [0xCB, 0xB3]
  | .res6_H => [0xCB, 0xB4]
  | .res6_L => [0xCB, 0xB5]
  | .res6_atHL => [0xCB, 0xB6]
  | .res6_A => [0xCB, 0xB7]
  | .res7_B => [0xCB, 0xB8]
  | .res7_C => [0xCB, 0xB9]
  | .res7_D => [0xCB, 0xBA]
  | .res7_E => [0xCB, 0xBB]
  | .res7_H => [0xCB, 0xBC]
  | .res7_L => [0xCB, 0xBD]
  | .res7_atHL => [0xCB, 0xBE]
  | .res7_A => [0xCB, 0xBF]
  | .set0_B => [0xCB, 0xC0]
  | .set0_C => [0xCB, 0xC1]
  | .set0_D => [0xCB, 0xC2]
  | .set0_E => [0xCB, 0xC3]
  | .set0_H => [0xCB, 0xC4]
  | .set0_L => [0xCB, 0xC5]
  | .set0_atHL => [0xCB, 0xC6]
  | .set0_A => [0xCB, 0xC7]
  | .set1_B => [0xCB, 0xC8]
  | .set1_C => [0xCB, 0xC9]
  | .set1_D => [0xCB, 0xCA]
  | .set1_E => [0xCB, 0xCB]
  | .set1_H => [0xCB, 0xCC]
  | .set1_L => [0xCB, 0xCD]
  | .set1_atHL => [0xCB, 0xCE]
  | .set1_A => [0xCB, 0xCF]
  | .set2_B => [0xCB, 0xD0]
  | .set2_C => [0xCB, 0xD1]
  | .set2_D => [0xCB, 0xD2]
  | .set2_E => [0xCB, 0xD3]
  | .set2_H => [0xCB, 0xD4]
  | .set2_L => [0xCB, 0xD5]
  | .set2_atHL => [0xCB, 0xD6]
  | .set2_A => [0xCB, 0xD7]
  | .set3_B => [0xCB, 0xD8]
  | .set3_C => [0xCB, 0xD9]
  | .set3_D => [0xCB, 0xDA]
  | .set3_E => [0xCB, 0xDB]
  | .set3_H => [0xCB, 0xDC]
  | .set3_L => [0xCB, 0xDD]
  | .set3_atHL => [0xCB, 0xDE]
  | .set3_A => [0xCB, 0xDF]
  | .set4_B => [0xCB, 0xE0]
  | .set4_C => [0xCB, 0xE1]
  | .set4_D => [0xCB, 0xE2]
  | .set4_E => [0xCB, 0xE3]
  | .set4_H => [0xCB, 0xE4]
  | .set4_L => [0xCB, 0xE5]
  | .set4_atHL => [0xCB, 0xE6]
  | .set4_A => [0xCB, 0xE7]
  | .set5_B => [0xCB, 0xE8]
  | .set5_C => [0xCB, 0xE9]
  | .set5_D => [0xCB, 0xEA]
  | .set5_E => [0xCB, 0xEB]
  | .set5_H => [0xCB, 0xEC]
  | .set5_L => [0xCB, 0xED]
  | .set5_atHL => [0xCB, 0xEE]
  | .set5_A => [0xCB, 0xEF]
  | .set6_B => [0xCB, 0xF0]
  | .set6_C => [0xCB, 0xF1]
  | .set6_D => [0xCB, 0xF2]
  | .set6_E => [0xCB, 0xF3]
  | .set6_H => [0xCB, 0xF4]
  | .set6_L => [0xCB, 0xF5]
  | .set6_atHL => [0xCB, 0xF6]
  | .set6_A => [0xCB, 0xF7]
  | .set7_B => [0xCB, 0xF8]
  | .set7_C => [0xCB, 0xF9]
  | .set7_D => [0xCB, 0xFA]
  | .set7_E => [0xCB, 0xFB]
  | .set7_H => [0xCB, 0xFC]
  | .set7_L => [0xCB, 0xFD]
  | .set7_atHL => [0xCB, 0xFE]
  | .set7_A => [0xCB, 0xFF]

/-- How many bytes of an instruction a step fetches (R130): the length of its encoding, but for STOP,
whose second byte is never fetched (R342). -/
def Instr.fetchedBytes (i : Instr) : Nat := if i = .stop then 1 else (encode i).length

end Sys2Proof
end

