-- ==== Sys2Proof/Config.lean ====
section
/-! DEFINITION. What the hardware fixes once (spec/00_scope.md R8) and the byte an unlisted
address reads as. The parameters of R9 are arguments of `Machine.resetWith`. -/

namespace Sys2Proof.Config

/-- DESIGN CHOICE, unsafe (log 2, log 3): what a byte of storage that no entry of a memory lists
reads as. The spec leaves RAM_INIT open (R9, D14) and the cartridge image to the host (R9). -/
def unlistedByte : Byte := 0x00

/-- The shortest cartridge image `reset` accepts (R101, R460). -/
def minRomSize : Nat := 16384

/-- The part of a cartridge image that is mapped (R101). -/
def maxRomSize : Nat := 32768

/-- The size of a boot ROM (R102). -/
def bootRomSize : Nat := 256

/-- PPU ticks per M-cycle (R8, R470). -/
def ticksPerCycle : Nat := 4

/-- Ticks per scanline (R8). -/
def ticksPerLine : Nat := 456

/-- The line tick at which OAMSearch ends (R8, R422). -/
def oamSearchTicks : Nat := 80

/-- The first line of VBlank (R8, R430). -/
def vblankLine : Byte := 144

/-- The last line of a frame (R8, R432). -/
def lastLine : Byte := 153

/-- Pixels of a line (R8, R428). -/
def lineWidth : Nat := 160

/-- M-cycles of an interrupt dispatch (R386). -/
def dispatchCycles : Nat := 5

end Sys2Proof.Config
end

