-- ==== Sys2Proof/Machine/Map.lean ====
section
/-! DEFINITION. The set of mappings of the bus (spec/20_memory.md sections 2 and 5): what a mapping is,
how one is found, added and removed, and the base map. -/

namespace Sys2Proof.Machine

/-- The registers of the scalar mappings (R100): those of the core (spec/10_state.md R43 to R53) and
those the core keeps for the collaborators (R63). -/
inductive IoReg where
  | joyp | sb | sc | tma | tac | iflag | lcdc | stat | scy | scx | ly | lyc | dma | bgp
  | obp0 | obp1 | wy | wx | boot | ie
deriving DecidableEq, Repr

/-- What backs a mapping (R81). An array mapping is backed by the bytes that memory, or the boot ROM
image, holds at the mapping's own addresses (log 16). -/
inductive Store where
  /-- The bytes of `State.mem` at the addresses of the mapping: an array of the base map. -/
  | memory
  /-- The same, for a mapping the platform added, an array or a scalar of its own (R106). The tag says
  which registers the platform added (R106, log 23). -/
  | platform
  /-- The bytes of the boot ROM image (R102). -/
  | bootRom
  /-- One register shared with the component that owns it (R83). -/
  | scalar (r : IoReg)
deriving DecidableEq, Repr

/-- A mapping (R81). -/
structure Mapping where
  base : Nat
  size : Nat
  readOnly : Bool
  store : Store
deriving DecidableEq, Repr

/-- The addresses of a mapping (R84). -/
def Mapping.contains (m : Mapping) (a : Nat) : Bool :=
  decide (m.base ≤ a) && decide (a < m.base + m.size)

/-- Two mappings name a common address (R81). -/
def Mapping.overlaps (m n : Mapping) : Bool :=
  decide (m.base < n.base + n.size) && decide (n.base < m.base + m.size)

/-- A mapping R81 allows: it is not empty and lies inside the address space; a scalar names one byte. -/
def Mapping.valid (m : Mapping) : Bool :=
  decide (1 ≤ m.size) && decide (m.base + m.size ≤ 0x10000) &&
    (match m.store with | .scalar _ => decide (m.size = 1) | _ => true)

/-- The set of mappings, sorted by base (R81). -/
abbrev BusMap := List Mapping

/-- The mapping that contains an address (R84, R88). -/
def BusMap.lookup (ms : BusMap) (a : Nat) : Option Mapping := ms.find? (·.contains a)

/-- `m` put at its place in the order of bases (R81). -/
def BusMap.insert (ms : BusMap) (m : Mapping) : BusMap :=
  match ms with
  | [] => [m]
  | n :: rest => if m.base < n.base then m :: n :: rest else n :: BusMap.insert rest m

/-- `add_mapping` (R82): none where the range overlaps a mapping of the set. -/
def BusMap.add (ms : BusMap) (m : Mapping) : Option BusMap :=
  if ms.any (·.overlaps m) then none else some (ms.insert m)

/-- `add_scalar_mapping` (R83). -/
def BusMap.addScalar (ms : BusMap) (r : IoReg) (base : Nat) (readOnly : Bool) : Option BusMap :=
  ms.add ⟨base, 1, readOnly, .scalar r⟩

/-- The mapping with exactly this base and size. -/
def Mapping.isAt (m : Mapping) (base size : Nat) : Bool :=
  decide (m.base = base) && decide (m.size = size)

/-- `remove_mapping` (R87): none where no mapping has exactly that base and size. -/
def BusMap.remove (ms : BusMap) (base size : Nat) : Option BusMap :=
  if ms.any (·.isAt base size) then some (ms.eraseP (·.isAt base size)) else none

/-- The set is sorted by base and no two of its mappings overlap (R81). -/
def BusMap.Sorted : BusMap → Bool
  | [] => true
  | m :: rest => rest.all (fun n => decide (m.base + m.size ≤ n.base)) && BusMap.Sorted rest

/-! ### The base map (R100) -/

/-- 0x0000-0x00FF: the boot ROM while it is mapped, else the cartridge (R100, R102). -/
def bootArea (bootMapped : Bool) : Mapping :=
  ⟨0x0000, 0x0100, true, if bootMapped then .bootRom else .memory⟩

/-- 0x4000-0x7FFF as far as the image goes (R101). -/
def bank1 (romSize : Nat) : BusMap :=
  if romSize ≤ 0x4000 then []
  else [⟨0x4000, min romSize Config.maxRomSize - 0x4000, true, .memory⟩]

/-- Cartridge RAM, of the size the platform gives (R103). -/
def cartRam (size : Nat) : BusMap := if size = 0 then [] else [⟨0xA000, size, false, .memory⟩]

/-- A scalar mapping of the base map. -/
def io (a : Nat) (r : IoReg) (readOnly : Bool := false) : Mapping := ⟨a, 1, readOnly, .scalar r⟩

/-- The mappings above cartridge RAM, which no parameter changes (R100). -/
def fixedMap : BusMap :=
  [⟨0xC000, 0x2000, false, .memory⟩,
   ⟨0xFE00, 0x00A0, false, .memory⟩,
   ⟨0xFEA0, 0x0060, true, .memory⟩] ++
  [io 0xFF00 .joyp, io 0xFF01 .sb, io 0xFF02 .sc, io 0xFF06 .tma, io 0xFF07 .tac,
   io 0xFF0F .iflag, ⟨0xFF10, 23, false, .memory⟩] ++
  [io 0xFF40 .lcdc, io 0xFF41 .stat, io 0xFF42 .scy, io 0xFF43 .scx, io 0xFF44 .ly true,
   io 0xFF45 .lyc, io 0xFF46 .dma, io 0xFF47 .bgp, io 0xFF48 .obp0, io 0xFF49 .obp1,
   io 0xFF4A .wy, io 0xFF4B .wx] ++
  [io 0xFF50 .boot, ⟨0xFF80, 127, false, .memory⟩, io 0xFFFF .ie]

/-- The base map (R100 to R105), with 0x0000-0x00FF a mapping of its own whether or not there is a boot
ROM. DESIGN CHOICE, unsafe (log 22): R100's table has that row, R102 speaks of the split only where a
boot ROM is given. -/
def baseMap (bootMapped : Bool) (romSize cartRamSize : Nat) : BusMap :=
  [bootArea bootMapped, ⟨0x0100, 0x3F00, true, .memory⟩] ++ bank1 romSize ++
    [⟨0x8000, 0x2000, false, .memory⟩] ++ cartRam cartRamSize ++ fixedMap

end Sys2Proof.Machine
end

