-- ==== Sys2Proof/Machine/State.lean ====
section
/-! DEFINITION. Everything the spec gives the machine (spec/10_state.md), the reasons a step can stop
(spec/60_exceptions.md section 1), and the machine right after reset (R64). -/

namespace Sys2Proof.Machine

/-- The bytes behind the array mappings, by address: addresses strictly rising, no byte equal to
`Config.unlistedByte`, which is what an address that is not listed reads as. -/
abbrev Memory := List Host.Cell

/-- A framebuffer (R61): the shades other than 0, by `160 * row + column`, rising (log 13). -/
abbrev Frame := List (Nat × Shade)

/-- The general registers but F (R30). -/
structure Regs where
  a : Byte
  b : Byte
  c : Byte
  d : Byte
  e : Byte
  h : Byte
  l : Byte
deriving DecidableEq, Repr

/-- The flag register F (R32): bits 7..4; bits 3..0 are always 0, so they are not stored (log 6). -/
structure Flags where
  z : Bool
  n : Bool
  h : Bool
  c : Bool
deriving DecidableEq, Repr

/-- The registers of the scalar mappings (R43 to R53, R63). -/
structure IoRegs where
  joyp : Byte
  sb : Byte
  sc : Byte
  tma : Byte
  tac : Byte
  iflag : Byte
  lcdc : Byte
  stat : Byte
  scy : Byte
  scx : Byte
  ly : Byte
  lyc : Byte
  dma : Byte
  bgp : Byte
  obp0 : Byte
  obp1 : Byte
  wy : Byte
  wx : Byte
  boot : Byte
  ie : Byte
deriving DecidableEq, Repr

/-- The PPU's mode (R55). -/
inductive Mode where
  | oamSearch | pixelTransfer | hblank | vblank
deriving DecidableEq, Repr

/-- The fetcher's sub-state (R58). -/
inductive FetchState where
  | tileNumber | tileDataLow | tileDataHigh | pushToFifo
deriving DecidableEq, Repr

/-- The PPU's internal state (R55 to R62). -/
structure Ppu where
  mode : Mode
  lineTick : Nat
  lcdOn : Bool
  fstate : FetchState
  /-- 0..255 by its type (R58, log 12). -/
  fetchIdx : Byte
  fetchPhase : Bool
  tileNo : Byte
  dataLo : Byte
  dataHi : Byte
  /-- The pending colour indices, the next one to leave first (R59). -/
  fifo : List Shade
  x : Nat
  front : Frame
  back : Frame
  frameReady : Bool
  statLine : Bool
deriving DecidableEq, Repr

/-- What an access that found no mapping was for (R360). -/
inductive Access where
  | fetch | read | write
deriving DecidableEq, Repr

/-- A fatal error record, kind and information (R360). -/
inductive FatalError where
  /-- An access to an address no mapping contains (R89); `pc0` is the PC at the start of the step. -/
  | unmapped (addr : Word) (access : Access) (pc0 : Word)
  /-- The fetched byte has no table entry (R346); `pc` is its address. -/
  | illegalOpcode (opcode : Byte) (pc : Word)
  /-- `remove_mapping` of a mapping that is not there (R87). -/
  | mappingNotFound (base size : Nat)
  /-- `add_mapping` over a mapping that is there (R82). -/
  | mappingOverlap (base size : Nat)
  /-- `reset` with too short an image (R460). -/
  | romTooShort (len : Nat)
  /-- `read16` or `write16` of two bytes that are not in one mapping (R86). -/
  | splitAccess (addr : Word)
deriving DecidableEq, Repr

/-- The names of refusals (R364): STOP's is the only one. -/
inductive RefusalName where
  | stop
deriving DecidableEq, Repr

/-- The state of the CORE (spec/10_state.md). -/
structure State where
  regs : Regs
  flags : Flags
  sp : Word
  pc : Word
  ime : Bool
  eiDelay : Nat
  halted : Bool
  fault : Option FatalError
  refused : Option RefusalName
  cyclesTotal : Nat
  stopRequested : Bool
  io : IoRegs
  bootMapped : Bool
  map : BusMap
  mem : Memory
  bootRom : Memory
  ppu : Ppu
  /-- The model's own: the PC at the start of the step, for the record of R360 (log 7). -/
  pc0 : Word
  /-- The model's own: the cycle count `step()` returned, or has counted so far (R386, log 7). -/
  stepCycles : Nat
deriving DecidableEq, Repr

/-- Why the machine stops with an error. Safe: a step that ends here proves nothing about a next
state, and the spec ends the emulation here too (R361). -/
inductive Fault where
  /-- A fatal error of R360, raised by the bus (read, write, fetch, stack access, DMA copy, BootHook,
  the host's 16-bit accesses and map operations), by the illegal opcodes, and again by every step of
  a state that holds a fault (R361). `final` is the terminal state, with the effects that were
  complete (R362) and `fault` set (R39). Safe (log 8). -/
  | fatal (err : FatalError) (final : State)
deriving DecidableEq, Repr

/-- Why a step has no meaning. Safe: nothing can be proved of a state after it. -/
inductive Refusal where
  /-- `exec` has no meaning yet for the instruction of this mnemonic. Safe. No arm answers it. -/
  | notModelled (mnemonic : String)
  /-- STOP (R342, R364), raised by its meaning and again by every step of a state that holds the
  refusal. `final` is the terminal state, with `refused` set (R39). Safe (log 9). -/
  | stop (final : State)
deriving DecidableEq, Repr

/-- What an instruction, or a step, answers. -/
abbrev Result := Host.Outcome State Fault Refusal

/-! ### Reset values (R64) -/

/-- The post-boot column of R64. -/
def IoRegs.postBoot : IoRegs where
  joyp := 0xCF
  sb := 0x00
  sc := 0x7E
  tma := 0x00
  tac := 0xF8
  iflag := 0xE1
  lcdc := 0x91
  stat := 0x86
  scy := 0x00
  scx := 0x00
  ly := 0x00
  lyc := 0x00
  dma := 0xFF
  bgp := 0xFC
  obp0 := 0xFF
  obp1 := 0xFF
  wy := 0x00
  wx := 0x00
  boot := 0x00
  ie := 0x00

/-- The PPU's internal state at reset (R64): `on` is LCDC bit 7. -/
def Ppu.init (on : Bool) : Ppu where
  mode := if on then .oamSearch else .hblank
  lineTick := 0
  lcdOn := on
  fstate := .tileNumber
  fetchIdx := 0
  fetchPhase := false
  tileNo := 0
  dataLo := 0
  dataHi := 0
  fifo := []
  x := 0
  front := []
  back := []
  frameReady := false
  statLine := false

/-- The machine right after `reset` with no boot ROM (R64, R460, R461, R463), for a cartridge image of
32768 zero bytes, no cartridge RAM and no extra mappings (log 2, log 4), every byte of RAM reading
`Config.unlistedByte` (log 3). The image's header byte is 0, so H and C are set (R463). -/
def State.reset : State where
  regs := { a := 0x01, b := 0x00, c := 0x13, d := 0x00, e := 0xD8, h := 0x01, l := 0x4D }
  flags := { z := true, n := false, h := true, c := true }
  sp := 0xFFFE
  pc := 0x0100
  ime := false
  eiDelay := 0
  halted := false
  fault := none
  refused := none
  cyclesTotal := 0
  stopRequested := false
  io := .postBoot
  bootMapped := false
  map := baseMap false Config.maxRomSize 0
  mem := []
  bootRom := []
  ppu := .init true
  pc0 := 0x0100
  stepCycles := 0

end Sys2Proof.Machine
end

