-- ==== Sys2Proof/Machine/Memory.lean ====
section
/-! DEFINITION. Sparse storage in one canonical form: keys strictly rising, no entry equal to the value
`d` that a key which is not listed reads as. Memory and the framebuffers are two uses of it. -/

namespace Sys2Proof.Machine

/-- The value at a key. -/
def Sparse.read {w : Nat} (d : BitVec w) (m : List (Nat × BitVec w)) (k : Nat) : BitVec w :=
  match m with
  | [] => d
  | (k', v) :: rest => if k < k' then d else if k = k' then v else Sparse.read d rest k

/-- `v` at a key; the entry goes where `v` is what an unlisted key reads as. -/
def Sparse.write {w : Nat} (d : BitVec w) (m : List (Nat × BitVec w)) (k : Nat) (v : BitVec w) :
    List (Nat × BitVec w) :=
  match m with
  | [] => if v = d then [] else [(k, v)]
  | (k', v') :: rest =>
    if k < k' then (if v = d then (k', v') :: rest else (k, v) :: (k', v') :: rest)
    else if k = k' then (if v = d then rest else (k, v) :: rest)
    else (k', v') :: Sparse.write d rest k v

/-- The canonical form. -/
def Sparse.wf {w : Nat} (d : BitVec w) (m : List (Nat × BitVec w)) : Bool :=
  match m with
  | [] => true
  | (k, v) :: rest =>
    decide (v ≠ d) && rest.all (fun e => decide (k < e.1)) && Sparse.wf d rest

/-- One byte of the storage behind the array mappings. -/
def Memory.read (m : Memory) (a : Nat) : Byte := Sparse.read Config.unlistedByte m a

/-- Storing one byte. -/
def Memory.write (m : Memory) (a : Nat) (v : Byte) : Memory := Sparse.write Config.unlistedByte m a v

/-- Memory is in its canonical form. -/
def Memory.wf (m : Memory) : Bool := Sparse.wf Config.unlistedByte m

/-- A list of bytes stored from an address on: the images of `reset` (R460). -/
def Memory.load (m : Memory) (a : Nat) : List Byte → Memory
  | [] => m
  | v :: rest => Memory.load (m.write a v) (a + 1) rest

/-- The key of a pixel: row by row, 160 columns each (R61). -/
def Frame.key (row col : Nat) : Nat := Config.lineWidth * row + col

/-- The shade of a pixel (R61); all 0 where nothing was drawn. -/
def Frame.read (f : Frame) (row col : Nat) : Shade := Sparse.read 0 f (Frame.key row col)

/-- Drawing a pixel (R428). -/
def Frame.write (f : Frame) (row col : Nat) (v : Shade) : Frame :=
  Sparse.write 0 f (Frame.key row col) v

/-- A framebuffer is in its canonical form. -/
def Frame.wf (f : Frame) : Bool := Sparse.wf 0 f

end Sys2Proof.Machine
end

