-- ==== Sys2Proof/Machine/Operands.lean ====
section
/-! DEFINITION. Registers, pairs, the byte view of F, conditions and the addresses of the operand forms
(spec/10_state.md R30 to R35, spec/00_scope.md R11, spec/30_encoding.md R134 to R138). -/

namespace Sys2Proof.Machine

def Regs.get (g : Regs) : Reg8 → Byte
  | .b => g.b | .c => g.c | .d => g.d | .e => g.e | .h => g.h | .l => g.l | .a => g.a

def Regs.set (g : Regs) (r : Reg8) (v : Byte) : Regs :=
  match r with
  | .b => { g with b := v } | .c => { g with c := v } | .d => { g with d := v }
  | .e => { g with e := v } | .h => { g with h := v } | .l => { g with l := v }
  | .a => { g with a := v }

/-- F as a byte: Z, N, H, C in bits 7..4 and 0 in bits 3..0 (R32). -/
def Flags.toByte (f : Flags) : Byte :=
  BitVec.ofBool f.z ++ BitVec.ofBool f.n ++ BitVec.ofBool f.h ++ BitVec.ofBool f.c ++ 0#4

/-- Writing F from a byte: bits 3..0 are dropped (R32). -/
def Flags.ofByte (v : Byte) : Flags where
  z := v.getLsbD 7
  n := v.getLsbD 6
  h := v.getLsbD 5
  c := v.getLsbD 4

/-- `x[r]` (R11). -/
def State.reg (s : State) (r : Reg8) : Byte := s.regs.get r

/-- `x[r] <- v` (R11). -/
def State.setReg (s : State) (r : Reg8) (v : Byte) : State := { s with regs := s.regs.set r v }

/-- `x[F]` (R32). -/
def State.f (s : State) : Byte := s.flags.toByte

def State.setFlags (s : State) (f : Flags) : State := { s with flags := f }

def State.setPc (s : State) (v : Word) : State := { s with pc := v }

def State.setSp (s : State) (v : Word) : State := { s with sp := v }

def State.bc (s : State) : Word := cat16 s.regs.b s.regs.c

def State.de (s : State) : Word := cat16 s.regs.d s.regs.e

def State.hl (s : State) : Word := cat16 s.regs.h s.regs.l

def State.af (s : State) : Word := cat16 s.regs.a s.f

/-- `x[rr]` for BC, DE, HL, SP (R11, R31). -/
def State.pair (s : State) : Pair → Word
  | .bc => s.bc | .de => s.de | .hl => s.hl | .sp => s.sp

/-- `x[rr] <- v`: the high half to the first-named register (R11, R31). -/
def State.setPair (s : State) (p : Pair) (v : Word) : State :=
  match p with
  | .bc => { s with regs := { s.regs with b := hi8 v, c := lo8 v } }
  | .de => { s with regs := { s.regs with d := hi8 v, e := lo8 v } }
  | .hl => { s with regs := { s.regs with h := hi8 v, l := lo8 v } }
  | .sp => { s with sp := v }

/-- `x[rr]` for BC, DE, HL, AF (R135). -/
def State.stackPair (s : State) : StackPair → Word
  | .bc => s.bc | .de => s.de | .hl => s.hl | .af => s.af

/-- `x[rr] <- v` for BC, DE, HL, AF; a write of AF drops bits 3..0 (R32, R186). -/
def State.setStackPair (s : State) (p : StackPair) (v : Word) : State :=
  match p with
  | .bc => s.setPair .bc v
  | .de => s.setPair .de v
  | .hl => s.setPair .hl v
  | .af => { s with regs := { s.regs with a := hi8 v }, flags := .ofByte (lo8 v) }

/-- `Cond(cc)` (R310). -/
def Flags.holds (f : Flags) : Cond → Bool
  | .nz => !f.z | .z => f.z | .nc => !f.c | .c => f.c

/-- The address of the high page at an offset (R137, R173 to R176). -/
def highPage (n : Byte) : Word := 0xFF00 + zext16 n

/-- The target of `RST t` (R138, R321). -/
def rstTarget (t : BitVec 3) : Word := t.setWidth 16 * 8

/-- The target of a relative jump: the offset is added to the PC after the offset byte (R314). -/
def relTarget (pc : Word) (e : Byte) : Word := pc + sext16 e

end Sys2Proof.Machine
end

