-- ==== Sys2Proof/Machine/Flags.lean ====
section
/-! DEFINITION. The arithmetic and logic with its flags: spec/41_alu8.md sections 1, 3 and 4,
spec/42_alu16.md section 1, and the results of spec/43_rotate_shift_bit.md. Sums and differences are
taken exactly and narrowed at the end (R200). -/

namespace Sys2Proof.Machine

/-- The low nibble as a number. -/
def nibble (v : Byte) : Nat := v.toNat % 16

/-- `AluAdd` (R201). -/
def aluAdd (a b : Byte) (cin : Bool) : Byte × Flags :=
  let s := a.toNat + b.toNat + carryIn cin
  let res : Byte := .ofNat 8 s
  (res,
    { z := decide (res = 0), n := false,
      h := decide (nibble a + nibble b + carryIn cin > 0xF), c := decide (s > 0xFF) })

/-- `AluSub` (R202). -/
def aluSub (a b : Byte) (cin : Bool) : Byte × Flags :=
  let d : Int := (a.toNat : Int) - b.toNat - carryIn cin
  let res : Byte := .ofInt 8 d
  (res,
    { z := decide (res = 0), n := true,
      h := decide (nibble a < nibble b + carryIn cin), c := decide (a.toNat < b.toNat + carryIn cin) })

/-- `AluAnd` (R203). -/
def aluAnd (a b : Byte) : Byte × Flags :=
  (a &&& b, { z := decide (a &&& b = 0), n := false, h := true, c := false })

/-- `AluXor` (R204). -/
def aluXor (a b : Byte) : Byte × Flags :=
  (a ^^^ b, { z := decide (a ^^^ b = 0), n := false, h := false, c := false })

/-- `AluOr` (R205). -/
def aluOr (a b : Byte) : Byte × Flags :=
  (a ||| b, { z := decide (a ||| b = 0), n := false, h := false, c := false })

/-- What A and the flags become (R206 to R229); CP keeps A (R227). `c` is the carry flag before. -/
def aluResult (op : AluOp) (a v : Byte) (c : Bool) : Byte × Flags :=
  match op with
  | .add => aluAdd a v false
  | .adc => aluAdd a v c
  | .sub => aluSub a v false
  | .sbc => aluSub a v c
  | .and => aluAnd a v
  | .xor => aluXor a v
  | .or => aluOr a v
  | .cp => (a, (aluSub a v false).2)

/-- INC of a byte: C is kept (R230). -/
def inc8 (v : Byte) (f : Flags) : Byte × Flags :=
  (v + 1, { f with z := decide (v + 1 = 0), n := false, h := decide (nibble v = 0xF) })

/-- DEC of a byte: C is kept (R232). -/
def dec8 (v : Byte) (f : Flags) : Byte × Flags :=
  (v - 1, { f with z := decide (v - 1 = 0), n := true, h := decide (nibble v = 0x0) })

/-- DAA: every test is on A, H and C as they were before (R234). -/
def daaResult (a : Byte) (f : Flags) : Byte × Flags :=
  let high := if f.n then f.c else f.c || decide (a.toNat > 0x99)
  let low := if f.n then f.h else f.h || decide (nibble a > 0x9)
  let corr : Byte := (if high then 0x60 else 0) + (if low then 0x06 else 0)
  let res := if f.n then a - corr else a + corr
  (res, { f with z := decide (res = 0), h := false, c := high })

/-- The flags of CPL (R235). -/
def cplFlags (f : Flags) : Flags := { f with n := true, h := true }

/-- The flags of SCF (R236). -/
def scfFlags (f : Flags) : Flags := { f with n := false, h := false, c := true }

/-- The flags of CCF (R237). -/
def ccfFlags (f : Flags) : Flags := { f with n := false, h := false, c := !f.c }

/-- ADD HL,rr: Z is kept (R251). -/
def add16 (h v : Word) (f : Flags) : Word × Flags :=
  let s := h.toNat + v.toNat
  (.ofNat 16 s,
    { f with n := false, h := decide (h.toNat % 0x1000 + v.toNat % 0x1000 > 0xFFF),
             c := decide (s > 0xFFFF) })

/-- `SpAdd` (R250): H and C are the carries of the unsigned sum of the low bytes. -/
def spAdd (sp : Word) (e : Byte) : Word × Flags :=
  (sp + sext16 e,
    { z := false, n := false, h := decide (sp.toNat % 16 + nibble e > 0xF),
      c := decide (sp.toNat % 256 + e.toNat > 0xFF) })

/-- The result of a rotate or shift and its carry out; `cin` is the carry flag before
(R270 to R290). SWAP has no carry out (R287). -/
def shiftResult (op : ShiftOp) (v : Byte) (cin : Bool) : Byte × Bool :=
  match op with
  | .rlc => (v.extractLsb' 0 7 ++ v.extractLsb' 7 1, v.getLsbD 7)
  | .rrc => (v.extractLsb' 0 1 ++ v.extractLsb' 1 7, v.getLsbD 0)
  | .rl => (v.extractLsb' 0 7 ++ BitVec.ofBool cin, v.getLsbD 7)
  | .rr => (BitVec.ofBool cin ++ v.extractLsb' 1 7, v.getLsbD 0)
  | .sla => (v.extractLsb' 0 7 ++ 0#1, v.getLsbD 7)
  | .sra => (v.extractLsb' 7 1 ++ v.extractLsb' 1 7, v.getLsbD 0)
  | .swap => (v.extractLsb' 0 4 ++ v.extractLsb' 4 4, false)
  | .srl => (0#1 ++ v.extractLsb' 1 7, v.getLsbD 0)

/-- The flags of the CB rotates and shifts (spec/43_rotate_shift_bit.md section 3). -/
def shiftFlags (res : Byte) (c : Bool) : Flags := { z := decide (res = 0), n := false, h := false, c := c }

/-- The flags of the accumulator rotates: Z is always 0 (R270 to R273). -/
def rotAFlags (c : Bool) : Flags := { z := false, n := false, h := false, c := c }

/-- The flags of BIT (R291). -/
def bitFlags (v : Byte) (b : Nat) (f : Flags) : Flags :=
  { f with z := !v.getLsbD b, n := false, h := true }

end Sys2Proof.Machine
end

