-- ==== Sys2Proof/Machine/Ops.lean ====
section
/-! DEFINITION. The operations every meaning is written over: the bus with its write hooks
(spec/20_memory.md), fetch (spec/00_scope.md R13), the stack (spec/40_load.md R160, R161), interrupt
requests, dispatch and return (spec/60_exceptions.md sections 2 and 3, spec/44_control.md R320).

An operation that can stop takes the rest of the instruction as its last argument: the rest runs only
if the operation completes, and what was done before a stop stays in the fault's final state (R361,
R362). -/

namespace Sys2Proof.Machine

/-! ### Stopping and completing -/

/-- The fault of a fatal error: the state as it is, with the record set (R39, R361, R362). -/
def State.fatal (s : State) (e : FatalError) : Fault := .fatal e { s with fault := some e }

/-- `n` more M-cycles counted (R386). -/
def State.count (s : State) (n : Nat) : State := { s with stepCycles := s.stepCycles + n }

/-- An instruction completes after `n` M-cycles (R386). -/
def State.done (s : State) (n : Nat) : Result := .next (s.count n)

/-! ### The bus -/

/-- The current value of a scalar (R83). -/
def IoRegs.get (g : IoRegs) : IoReg → Byte
  | .joyp => g.joyp | .sb => g.sb | .sc => g.sc | .tma => g.tma | .tac => g.tac
  | .iflag => g.iflag | .lcdc => g.lcdc | .stat => g.stat | .scy => g.scy | .scx => g.scx
  | .ly => g.ly | .lyc => g.lyc | .dma => g.dma | .bgp => g.bgp | .obp0 => g.obp0
  | .obp1 => g.obp1 | .wy => g.wy | .wx => g.wx | .boot => g.boot | .ie => g.ie

/-- Storing into a scalar (R83). -/
def IoRegs.set (g : IoRegs) (r : IoReg) (v : Byte) : IoRegs :=
  match r with
  | .joyp => { g with joyp := v } | .sb => { g with sb := v } | .sc => { g with sc := v }
  | .tma => { g with tma := v } | .tac => { g with tac := v } | .iflag => { g with iflag := v }
  | .lcdc => { g with lcdc := v } | .stat => { g with stat := v } | .scy => { g with scy := v }
  | .scx => { g with scx := v } | .ly => { g with ly := v } | .lyc => { g with lyc := v }
  | .dma => { g with dma := v } | .bgp => { g with bgp := v } | .obp0 => { g with obp0 := v }
  | .obp1 => { g with obp1 := v } | .wy => { g with wy := v } | .wx => { g with wx := v }
  | .boot => { g with boot := v } | .ie => { g with ie := v }

/-- The byte a store of a mapping holds for an address (R84). -/
def State.readStore (s : State) (st : Store) (a : Nat) : Byte :=
  match st with
  | .memory | .platform => s.mem.read a
  | .bootRom => s.bootRom.read a
  | .scalar r => s.io.get r

/-- A store of a mapping takes a byte for an address (R85). -/
def State.writeStore (s : State) (st : Store) (a : Nat) (v : Byte) : State :=
  match st with
  | .memory | .platform => { s with mem := s.mem.write a v }
  | .bootRom => { s with bootRom := s.bootRom.write a v }
  | .scalar r => { s with io := s.io.set r v }

/-- The byte `read8` gives (R84): none where no mapping contains the address (R89). Reads change nothing
(R98). The error of a read that finds none is made where it is used: by `withByte` and `fetch8` in a
step, by `hostRead8` between steps (log 20). -/
def State.read8 (s : State) (a : Word) : Option Byte :=
  (s.map.lookup a.toNat).map fun m => s.readStore m.store a.toNat

/-- The part of `write8` before its hook (R85): a write to a read-only mapping is dropped (R90). -/
def State.store8 (s : State) (a : Word) (v : Byte) : Except Fault State :=
  match s.map.lookup a.toNat with
  | none => .error (s.fatal (.unmapped a .write s.pc0))
  | some m => .ok (if m.readOnly then s else s.writeStore m.store a.toNat v)

/-- `remove_mapping` (R87). -/
def State.removeMapping (s : State) (base size : Nat) : Except Fault State :=
  match s.map.remove base size with
  | none => .error (s.fatal (.mappingNotFound base size))
  | some ms => .ok { s with map := ms }

/-- `add_mapping` and, for a scalar store, `add_scalar_mapping` (R82, R83). -/
def State.addMapping (s : State) (m : Mapping) : Except Fault State :=
  match s.map.add m with
  | none => .error (s.fatal (.mappingOverlap m.base m.size))
  | some ms => .ok { s with map := ms }

/-- `BootHook` (R95): the boot ROM goes and the cartridge's first bytes take its place. -/
def State.bootHook (s : State) (v : Byte) : Except Fault State :=
  if v ≠ 0 ∧ s.bootMapped then
    match s.removeMapping 0x0000 0x0100 with
    | .error f => .error f
    | .ok t =>
      match t.addMapping (bootArea false) with
      | .error f => .error f
      | .ok u => .ok { u with bootMapped := false }
  else .ok s

/-- The first `n` of the bytes of an OAM copy that are left, from offset `i` on (R96). Its writes go to
0xFE00-0xFE9F, where there is no hook. -/
def State.dmaCopy (src : Word) : Nat → Nat → State → Except Fault State
  | 0, _, s => .ok s
  | n + 1, i, s =>
    match s.read8 (src + .ofNat 16 i) with
    | none => .error (s.fatal (.unmapped (src + .ofNat 16 i) .read s.pc0))
    | some v =>
      match s.store8 (0xFE00 + .ofNat 16 i) v with
      | .error f => .error f
      | .ok t => State.dmaCopy src n (i + 1) t

/-- `DmaHook` (R96): 160 bytes from `v ++ 0x00` to OAM, all within the write. -/
def State.dmaHook (s : State) (v : Byte) : Except Fault State := State.dmaCopy (cat16 v 0x00) 160 0 s

/-- The hook of an address, after the byte is stored (R85). -/
def State.writeHook (s : State) (a : Word) (v : Byte) : Except Fault State :=
  if a = 0xFF50 then s.bootHook v else if a = 0xFF46 then s.dmaHook v else .ok s

/-- `write8` (R85). A dropped write runs no hook (R90). -/
def State.write8 (s : State) (a : Word) (v : Byte) : Except Fault State :=
  match s.map.lookup a.toNat with
  | none => .error (s.fatal (.unmapped a .write s.pc0))
  | some m => if m.readOnly then .ok s else (s.writeStore m.store a.toNat v).writeHook a v

/-- The two bytes at `a` and `a + 1` lie in one mapping (R86). -/
def State.oneMapping (s : State) (a : Word) : Bool :=
  match s.map.lookup a.toNat with
  | none => false
  | some m => m.contains (a.toNat + 1)

/-- `read8` between steps (R19, R84): the byte, or the record of R360. The error's state has `fault` set,
as after a step. DESIGN CHOICE, safe (log 20): the spec makes a failed step terminal (R361) and does not
say what a failed access of the host leaves. -/
def State.hostRead8 (s : State) (a : Word) : Except Fault Byte :=
  match s.read8 a with
  | none => .error (s.fatal (.unmapped a .read s.pc0))
  | some v => .ok v

/-- `read16`, little-endian, for the host and the collaborators (R86); its error as in `hostRead8`. -/
def State.read16 (s : State) (a : Word) : Except Fault Word :=
  if s.oneMapping a then
    match s.read8 a, s.read8 (a + 1) with
    | some lo, some hi => .ok (cat16 hi lo)
    | _, _ => .error (s.fatal (.splitAccess a))
  else .error (s.fatal (.splitAccess a))

/-- `write16`, little-endian, for the host and the collaborators (R86); its error as in `hostRead8`. -/
def State.write16 (s : State) (a : Word) (v : Word) : Except Fault State :=
  if s.oneMapping a then
    match s.write8 a (lo8 v) with
    | .error f => .error f
    | .ok t => t.write8 (a + 1) (hi8 v)
  else .error (s.fatal (.splitAccess a))

/-! ### Accesses of an instruction (R12) -/

/-- `v <- MemRead(a, 1)`, then `k v`. -/
def State.withByte (s : State) (a : Word) (k : Byte → Result) : Result :=
  match s.read8 a with
  | none => .fault (s.fatal (.unmapped a .read s.pc0))
  | some v => k v

/-- `MemWrite(a, 1, v)`, then `k` on the state it leaves. -/
def State.withStore (s : State) (a : Word) (v : Byte) (k : State → Result) : Result :=
  match s.write8 a v with
  | .error f => .fault f
  | .ok t => k t

/-- `Fetch8()` (R13): the byte at PC, and PC moves past it. -/
def State.fetch8 (s : State) (k : Byte → State → Result) : Result :=
  match s.read8 s.pc with
  | none => .fault (s.fatal (.unmapped s.pc .fetch s.pc0))
  | some v => k v (s.setPc (s.pc + 1))

/-- The opcode and the operand bytes it takes, fetched in order, low byte first (R13, R130, R380). Every
rule fetches its operand bytes before any other access (R482), so the instruction runs on the state
after the fetches, with PC past its last fetched byte (R34, log 11). -/
def State.fetchInstr (s : State) (k : Instr → State → Result) : Result :=
  s.fetch8 fun op s =>
    match operandBytes op with
    | 0 => k (assemble op 0 0) s
    | 1 => s.fetch8 fun b1 s => k (assemble op b1 0) s
    | _ => s.fetch8 fun b1 s => s.fetch8 fun b2 s => k (assemble op b1 b2) s

/-! ### The stack -/

/-- `Push16(v)`: the high byte first, SP before each write (R160). -/
def State.push16 (s : State) (v : Word) (k : State → Result) : Result :=
  (s.setSp (s.sp - 1)).withStore (s.sp - 1) (hi8 v) fun t =>
    (t.setSp (t.sp - 1)).withStore (t.sp - 1) (lo8 v) k

/-- `Pop16()`: the low byte first, SP after each read (R161). -/
def State.pop16 (s : State) (k : Word → State → Result) : Result :=
  s.withByte s.sp fun lo =>
    let t := s.setSp (s.sp + 1)
    t.withByte t.sp fun hi => k (cat16 hi lo) (t.setSp (t.sp + 1))

/-! ### Interrupts -/

/-- The sources, in the order of their bits (R42). -/
inductive Source where
  | vblank | lcdStat | timer | serial | joypad
deriving DecidableEq, Repr

/-- The bit of a source in IE and IF (R42). -/
def Source.bit : Source → Nat
  | .vblank => 0 | .lcdStat => 1 | .timer => 2 | .serial => 3 | .joypad => 4

/-- The handler of a source (R384). -/
def Source.vector (i : Source) : Word := 0x0040 + 8 * .ofNat 16 i.bit

/-- `request(source)`: latched whatever IME and IE are (R370). -/
def State.request (s : State) (i : Source) : State :=
  { s with io := { s.io with iflag := s.io.iflag ||| bit8 i.bit } }

/-- `enabled(source)` (R371). -/
def State.enabled (s : State) (i : Source) : Bool := s.io.ie.getLsbD i.bit

/-- `pending(source)` (R371). -/
def State.pending (s : State) (i : Source) : Bool := s.io.iflag.getLsbD i.bit

/-- `pend = IE AND IF AND 0x1F`, read from the scalars, not through the bus (R371, R380). -/
def State.pend (s : State) : Byte := s.io.ie &&& s.io.iflag &&& 0x1F

/-- The source of the least bit that is set (R383); it is asked only of a `pend` that is not 0. -/
def firstSource (pend : Byte) : Source :=
  if pend.getLsbD 0 then .vblank else if pend.getLsbD 1 then .lcdStat
  else if pend.getLsbD 2 then .timer else if pend.getLsbD 3 then .serial else .joypad

/-- `Dispatch(pend)` (R381), the only way into a handler: IME, then the IF bit through the bus, then
the two pushes, then PC (D36); 5 M-cycles (R386). Nothing else is saved (R390). -/
def State.dispatch (s : State) (pend : Byte) (k : State → Result) : Result :=
  let i := firstSource pend
  let s := { s with ime := false }
  s.withStore 0xFF0F (s.io.iflag &&& ~~~ bit8 i.bit) fun t =>
    t.push16 t.pc fun u =>
      k { u with pc := i.vector, stepCycles := u.stepCycles + Config.dispatchCycles }

/-- The return of RETI (R320, R389): PC is popped, IME is 1 at once, an armed EI is cancelled. -/
def State.returnFromInterrupt (s : State) (k : State → Result) : Result :=
  s.pop16 fun v t => k { t with pc := v, ime := true, eiDelay := 0 }

/-- `EndOfStepEI()` (R385). -/
def State.endOfStepEi (s : State) : State :=
  if s.eiDelay = 0 then s
  else { s with eiDelay := s.eiDelay - 1, ime := decide (s.eiDelay = 1) || s.ime }

end Sys2Proof.Machine
end

