-- ==== Sys2Proof/Machine/Alu16.lean ====
section
/-! DEFINITION. 16-bit arithmetic (spec/42_alu16.md). -/

namespace Sys2Proof.Machine

/-- `ADD HL, rr` (R251). -/
def addHl (p : Pair) (s : State) : Result :=
  let r := add16 s.hl (s.pair p) s.flags
  ((s.setPair .hl r.1).setFlags r.2).done 2

/-- `INC rr` and `DEC rr`, no flag changed (R252, R253). -/
def stepPair (p : Pair) (step : Word) (s : State) : Result := (s.setPair p (s.pair p + step)).done 2

/-- SP or HL takes `SpAdd(e)`, and F its flags (R250, R254, R255). -/
def spAddTo (p : Pair) (e : Byte) (cycles : Nat) (s : State) : Result :=
  let r := spAdd s.sp e
  ((s.setPair p r.1).setFlags r.2).done cycles

/-! `ADD HL, rr` (R251) -/

def execAddHL_BC (s : State) : Result := addHl .bc s
def execAddHL_DE (s : State) : Result := addHl .de s
def execAddHL_HL (s : State) : Result := addHl .hl s
def execAddHL_SP (s : State) : Result := addHl .sp s

/-! `INC rr` (R252) -/

def execIncBC (s : State) : Result := stepPair .bc 1 s
def execIncDE (s : State) : Result := stepPair .de 1 s
def execIncHL (s : State) : Result := stepPair .hl 1 s
def execIncSP (s : State) : Result := stepPair .sp 1 s

/-! `DEC rr` (R253) -/

def execDecBC (s : State) : Result := stepPair .bc (-1) s
def execDecDE (s : State) : Result := stepPair .de (-1) s
def execDecHL (s : State) : Result := stepPair .hl (-1) s
def execDecSP (s : State) : Result := stepPair .sp (-1) s

/-! `ADD SP, e8` (R254) and `LD HL, SP+e8` (R255) -/

def execAddSP_e8 (e : Byte) (s : State) : Result := spAddTo .sp e 4 s
def execLdHL_SPe8 (e : Byte) (s : State) : Result := spAddTo .hl e 3 s

end Sys2Proof.Machine
end

