-- ==== Sys2Proof/Machine/Alu8.lean ====
section
/-! DEFINITION. 8-bit arithmetic and logic (spec/41_alu8.md). -/

namespace Sys2Proof.Machine

/-- A and F from an accumulator operation on `v` (R206 to R229). -/
def aluA (op : AluOp) (v : Byte) (cycles : Nat) (s : State) : Result :=
  let r := aluResult op s.regs.a v s.flags.c
  ((s.setReg .a r.1).setFlags r.2).done cycles

/-- The register form and the (HL) form (spec/41_alu8.md section 2). -/
def aluOperand (op : AluOp) (o : Operand8) (s : State) : Result :=
  match o with
  | .reg r => aluA op (s.reg r) 1 s
  | .atHL => s.withByte s.hl fun v => aluA op v 2 s

/-- A byte is changed together with the flags, in a register (R230, R232) or at HL, where the flags are
written before the store (R231, R233). -/
def modify8 (f : Byte → Flags → Byte × Flags) (o : Operand8) (s : State) : Result :=
  match o with
  | .reg r => ((s.setReg r (f (s.reg r) s.flags).1).setFlags (f (s.reg r) s.flags).2).done 1
  | .atHL =>
    s.withByte s.hl fun v =>
      (s.setFlags (f v s.flags).2).withStore s.hl (f v s.flags).1 fun t => t.done 3

/-! ADD (R206 to R208) -/

def execAdd_B (s : State) : Result := aluOperand .add (.reg .b) s
def execAdd_C (s : State) : Result := aluOperand .add (.reg .c) s
def execAdd_D (s : State) : Result := aluOperand .add (.reg .d) s
def execAdd_E (s : State) : Result := aluOperand .add (.reg .e) s
def execAdd_H (s : State) : Result := aluOperand .add (.reg .h) s
def execAdd_L (s : State) : Result := aluOperand .add (.reg .l) s
def execAdd_atHL (s : State) : Result := aluOperand .add .atHL s
def execAdd_A (s : State) : Result := aluOperand .add (.reg .a) s
def execAdd_n8 (n : Byte) (s : State) : Result := aluA .add n 2 s

/-! ADC (R209 to R211) -/

def execAdc_B (s : State) : Result := aluOperand .adc (.reg .b) s
def execAdc_C (s : State) : Result := aluOperand .adc (.reg .c) s
def execAdc_D (s : State) : Result := aluOperand .adc (.reg .d) s
def execAdc_E (s : State) : Result := aluOperand .adc (.reg .e) s
def execAdc_H (s : State) : Result := aluOperand .adc (.reg .h) s
def execAdc_L (s : State) : Result := aluOperand .adc (.reg .l) s
def execAdc_atHL (s : State) : Result := aluOperand .adc .atHL s
def execAdc_A (s : State) : Result := aluOperand .adc (.reg .a) s
def execAdc_n8 (n : Byte) (s : State) : Result := aluA .adc n 2 s

/-! SUB (R212 to R214) -/

def execSub_B (s : State) : Result := aluOperand .sub (.reg .b) s
def execSub_C (s : State) : Result := aluOperand .sub (.reg .c) s
def execSub_D (s : State) : Result := aluOperand .sub (.reg .d) s
def execSub_E (s : State) : Result := aluOperand .sub (.reg .e) s
def execSub_H (s : State) : Result := aluOperand .sub (.reg .h) s
def execSub_L (s : State) : Result := aluOperand .sub (.reg .l) s
def execSub_atHL (s : State) : Result := aluOperand .sub .atHL s
def execSub_A (s : State) : Result := aluOperand .sub (.reg .a) s
def execSub_n8 (n : Byte) (s : State) : Result := aluA .sub n 2 s

/-! SBC (R215 to R217) -/

def execSbc_B (s : State) : Result := aluOperand .sbc (.reg .b) s
def execSbc_C (s : State) : Result := aluOperand .sbc (.reg .c) s
def execSbc_D (s : State) : Result := aluOperand .sbc (.reg .d) s
def execSbc_E (s : State) : Result := aluOperand .sbc (.reg .e) s
def execSbc_H (s : State) : Result := aluOperand .sbc (.reg .h) s
def execSbc_L (s : State) : Result := aluOperand .sbc (.reg .l) s
def execSbc_atHL (s : State) : Result := aluOperand .sbc .atHL s
def execSbc_A (s : State) : Result := aluOperand .sbc (.reg .a) s
def execSbc_n8 (n : Byte) (s : State) : Result := aluA .sbc n 2 s

/-! AND (R218 to R220) -/

def execAnd_B (s : State) : Result := aluOperand .and (.reg .b) s
def execAnd_C (s : State) : Result := aluOperand .and (.reg .c) s
def execAnd_D (s : State) : Result := aluOperand .and (.reg .d) s
def execAnd_E (s : State) : Result := aluOperand .and (.reg .e) s
def execAnd_H (s : State) : Result := aluOperand .and (.reg .h) s
def execAnd_L (s : State) : Result := aluOperand .and (.reg .l) s
def execAnd_atHL (s : State) : Result := aluOperand .and .atHL s
def execAnd_A (s : State) : Result := aluOperand .and (.reg .a) s
def execAnd_n8 (n : Byte) (s : State) : Result := aluA .and n 2 s

/-! XOR (R221 to R223) -/

def execXor_B (s : State) : Result := aluOperand .xor (.reg .b) s
def execXor_C (s : State) : Result := aluOperand .xor (.reg .c) s
def execXor_D (s : State) : Result := aluOperand .xor (.reg .d) s
def execXor_E (s : State) : Result := aluOperand .xor (.reg .e) s
def execXor_H (s : State) : Result := aluOperand .xor (.reg .h) s
def execXor_L (s : State) : Result := aluOperand .xor (.reg .l) s
def execXor_atHL (s : State) : Result := aluOperand .xor .atHL s
def execXor_A (s : State) : Result := aluOperand .xor (.reg .a) s
def execXor_n8 (n : Byte) (s : State) : Result := aluA .xor n 2 s

/-! OR (R224 to R226) -/

def execOr_B (s : State) : Result := aluOperand .or (.reg .b) s
def execOr_C (s : State) : Result := aluOperand .or (.reg .c) s
def execOr_D (s : State) : Result := aluOperand .or (.reg .d) s
def execOr_E (s : State) : Result := aluOperand .or (.reg .e) s
def execOr_H (s : State) : Result := aluOperand .or (.reg .h) s
def execOr_L (s : State) : Result := aluOperand .or (.reg .l) s
def execOr_atHL (s : State) : Result := aluOperand .or .atHL s
def execOr_A (s : State) : Result := aluOperand .or (.reg .a) s
def execOr_n8 (n : Byte) (s : State) : Result := aluA .or n 2 s

/-! CP (R227 to R229) -/

def execCp_B (s : State) : Result := aluOperand .cp (.reg .b) s
def execCp_C (s : State) : Result := aluOperand .cp (.reg .c) s
def execCp_D (s : State) : Result := aluOperand .cp (.reg .d) s
def execCp_E (s : State) : Result := aluOperand .cp (.reg .e) s
def execCp_H (s : State) : Result := aluOperand .cp (.reg .h) s
def execCp_L (s : State) : Result := aluOperand .cp (.reg .l) s
def execCp_atHL (s : State) : Result := aluOperand .cp .atHL s
def execCp_A (s : State) : Result := aluOperand .cp (.reg .a) s
def execCp_n8 (n : Byte) (s : State) : Result := aluA .cp n 2 s

/-! INC (R230, R231) -/

def execIncB (s : State) : Result := modify8 inc8 (.reg .b) s
def execIncC (s : State) : Result := modify8 inc8 (.reg .c) s
def execIncD (s : State) : Result := modify8 inc8 (.reg .d) s
def execIncE (s : State) : Result := modify8 inc8 (.reg .e) s
def execIncH (s : State) : Result := modify8 inc8 (.reg .h) s
def execIncL (s : State) : Result := modify8 inc8 (.reg .l) s
def execIncAtHL (s : State) : Result := modify8 inc8 .atHL s
def execIncA (s : State) : Result := modify8 inc8 (.reg .a) s

/-! DEC (R232, R233) -/

def execDecB (s : State) : Result := modify8 dec8 (.reg .b) s
def execDecC (s : State) : Result := modify8 dec8 (.reg .c) s
def execDecD (s : State) : Result := modify8 dec8 (.reg .d) s
def execDecE (s : State) : Result := modify8 dec8 (.reg .e) s
def execDecH (s : State) : Result := modify8 dec8 (.reg .h) s
def execDecL (s : State) : Result := modify8 dec8 (.reg .l) s
def execDecAtHL (s : State) : Result := modify8 dec8 .atHL s
def execDecA (s : State) : Result := modify8 dec8 (.reg .a) s

/-! Accumulator adjust and the flag instructions (R234 to R237) -/

/-- `DAA` (R234). -/
def execDaa (s : State) : Result :=
  let r := daaResult s.regs.a s.flags
  ((s.setReg .a r.1).setFlags r.2).done 1

/-- `CPL` (R235). -/
def execCpl (s : State) : Result :=
  ((s.setReg .a (s.regs.a ^^^ 0xFF)).setFlags (cplFlags s.flags)).done 1

/-- `SCF` (R236). -/
def execScf (s : State) : Result := (s.setFlags (scfFlags s.flags)).done 1

/-- `CCF` (R237). -/
def execCcf (s : State) : Result := (s.setFlags (ccfFlags s.flags)).done 1

end Sys2Proof.Machine
end

