-- ==== Sys2Proof/Machine/Control.lean ====
section
/-! DEFINITION. Jumps, calls, returns and restarts (spec/44_control.md). A conditional form takes its
operand bytes whether or not it branches, and counts its taken cycles only where it does (R310). -/

namespace Sys2Proof.Machine

/-- An absolute or relative jump to `target` (R311, R313, R314). -/
def jumpTo (target : Word) (cycles : Nat) (s : State) : Result := (s.setPc target).done cycles

/-- A jump if the condition holds (R312, R315). -/
def jumpIf (q : Cond) (target : Word) (taken base : Nat) (s : State) : Result :=
  if s.flags.holds q then jumpTo target taken s else s.done base

/-- A call: the address of the next instruction is pushed (R316, R321). -/
def callTo (target : Word) (cycles : Nat) (s : State) : Result :=
  s.push16 s.pc fun t => (t.setPc target).done cycles

/-- `CALL cc, a16` (R317). -/
def callIf (q : Cond) (target : Word) (s : State) : Result :=
  if s.flags.holds q then callTo target 6 s else s.done 3

/-- A return (R318, R319). -/
def returnFrom (cycles : Nat) (s : State) : Result := s.pop16 fun v t => (t.setPc v).done cycles

/-- `RET cc` (R319). -/
def returnIf (q : Cond) (s : State) : Result :=
  if s.flags.holds q then returnFrom 5 s else s.done 2

/-! JP (R311 to R313) -/

def execJp (a : Word) (s : State) : Result := jumpTo a 4 s
def execJpNZ (a : Word) (s : State) : Result := jumpIf .nz a 4 3 s
def execJpZ (a : Word) (s : State) : Result := jumpIf .z a 4 3 s
def execJpNC (a : Word) (s : State) : Result := jumpIf .nc a 4 3 s
def execJpC (a : Word) (s : State) : Result := jumpIf .c a 4 3 s
def execJpHL (s : State) : Result := jumpTo s.hl 1 s

/-! JR (R314, R315) -/

def execJr (e : Byte) (s : State) : Result := jumpTo (relTarget s.pc e) 3 s
def execJrNZ (e : Byte) (s : State) : Result := jumpIf .nz (relTarget s.pc e) 3 2 s
def execJrZ (e : Byte) (s : State) : Result := jumpIf .z (relTarget s.pc e) 3 2 s
def execJrNC (e : Byte) (s : State) : Result := jumpIf .nc (relTarget s.pc e) 3 2 s
def execJrC (e : Byte) (s : State) : Result := jumpIf .c (relTarget s.pc e) 3 2 s

/-! CALL (R316, R317) -/

def execCall (a : Word) (s : State) : Result := callTo a 6 s
def execCallNZ (a : Word) (s : State) : Result := callIf .nz a s
def execCallZ (a : Word) (s : State) : Result := callIf .z a s
def execCallNC (a : Word) (s : State) : Result := callIf .nc a s
def execCallC (a : Word) (s : State) : Result := callIf .c a s

/-! RET, RET cc, RETI (R318 to R320) -/

def execRet (s : State) : Result := returnFrom 4 s
def execRetNZ (s : State) : Result := returnIf .nz s
def execRetZ (s : State) : Result := returnIf .z s
def execRetNC (s : State) : Result := returnIf .nc s
def execRetC (s : State) : Result := returnIf .c s
def execReti (s : State) : Result := s.returnFromInterrupt fun t => t.done 4

/-! RST (R321) -/

def execRst00 (s : State) : Result := callTo (rstTarget 0) 4 s
def execRst08 (s : State) : Result := callTo (rstTarget 1) 4 s
def execRst10 (s : State) : Result := callTo (rstTarget 2) 4 s
def execRst18 (s : State) : Result := callTo (rstTarget 3) 4 s
def execRst20 (s : State) : Result := callTo (rstTarget 4) 4 s
def execRst28 (s : State) : Result := callTo (rstTarget 5) 4 s
def execRst30 (s : State) : Result := callTo (rstTarget 6) 4 s
def execRst38 (s : State) : Result := callTo (rstTarget 7) 4 s

end Sys2Proof.Machine
end

