-- ==== Sys2Proof/Machine/Load.lean ====
section
/-! DEFINITION. Loads, stores and stack transfers (spec/40_load.md). -/

namespace Sys2Proof.Machine

/-- `LD r, r'` (R162). -/
def loadReg (dst src : Reg8) (s : State) : Result := (s.setReg dst (s.reg src)).done 1

/-- `LD r, n8` (R163). -/
def loadImm (dst : Reg8) (n : Byte) (s : State) : Result := (s.setReg dst n).done 2

/-- A register takes the byte at an address (R164, R167, R168, R171, R173, R175). -/
def loadFrom (dst : Reg8) (a : Word) (cycles : Nat) (s : State) : Result :=
  s.withByte a fun v => (s.setReg dst v).done cycles

/-- A byte is stored at an address (R165, R166, R169, R170, R172, R174, R176). -/
def storeTo (a : Word) (v : Byte) (cycles : Nat) (s : State) : Result :=
  s.withStore a v fun t => t.done cycles

/-- `LD A, (HL+)` and `LD A, (HL-)`: A, then HL moves by `step` (R177, R178). -/
def loadAStep (step : Word) (s : State) : Result :=
  s.withByte s.hl fun v => ((s.setReg .a v).setPair .hl (s.hl + step)).done 2

/-- `LD (HL+), A` and `LD (HL-), A`: the store, then HL moves by `step` (R179, R180). -/
def storeAStep (step : Word) (s : State) : Result :=
  s.withStore s.hl s.regs.a fun t => (t.setPair .hl (s.hl + step)).done 2

/-- `LD rr, n16` (R181). -/
def loadPair (p : Pair) (n : Word) (s : State) : Result := (s.setPair p n).done 3

/-- `PUSH rr` (R184). -/
def pushPair (p : StackPair) (s : State) : Result := s.push16 (s.stackPair p) fun t => t.done 4

/-- `POP rr` (R185) and `POP AF` (R186). -/
def popPair (p : StackPair) (s : State) : Result := s.pop16 fun v t => (t.setStackPair p v).done 3

/-! `LD r, r'` (R162) -/

def execLdB_B (s : State) : Result := loadReg .b .b s
def execLdB_C (s : State) : Result := loadReg .b .c s
def execLdB_D (s : State) : Result := loadReg .b .d s
def execLdB_E (s : State) : Result := loadReg .b .e s
def execLdB_H (s : State) : Result := loadReg .b .h s
def execLdB_L (s : State) : Result := loadReg .b .l s
def execLdB_A (s : State) : Result := loadReg .b .a s
def execLdC_B (s : State) : Result := loadReg .c .b s
def execLdC_C (s : State) : Result := loadReg .c .c s
def execLdC_D (s : State) : Result := loadReg .c .d s
def execLdC_E (s : State) : Result := loadReg .c .e s
def execLdC_H (s : State) : Result := loadReg .c .h s
def execLdC_L (s : State) : Result := loadReg .c .l s
def execLdC_A (s : State) : Result := loadReg .c .a s
def execLdD_B (s : State) : Result := loadReg .d .b s
def execLdD_C (s : State) : Result := loadReg .d .c s
def execLdD_D (s : State) : Result := loadReg .d .d s
def execLdD_E (s : State) : Result := loadReg .d .e s
def execLdD_H (s : State) : Result := loadReg .d .h s
def execLdD_L (s : State) : Result := loadReg .d .l s
def execLdD_A (s : State) : Result := loadReg .d .a s
def execLdE_B (s : State) : Result := loadReg .e .b s
def execLdE_C (s : State) : Result := loadReg .e .c s
def execLdE_D (s : State) : Result := loadReg .e .d s
def execLdE_E (s : State) : Result := loadReg .e .e s
def execLdE_H (s : State) : Result := loadReg .e .h s
def execLdE_L (s : State) : Result := loadReg .e .l s
def execLdE_A (s : State) : Result := loadReg .e .a s
def execLdH_B (s : State) : Result := loadReg .h .b s
def execLdH_C (s : State) : Result := loadReg .h .c s
def execLdH_D (s : State) : Result := loadReg .h .d s
def execLdH_E (s : State) : Result := loadReg .h .e s
def execLdH_H (s : State) : Result := loadReg .h .h s
def execLdH_L (s : State) : Result := loadReg .h .l s
def execLdH_A (s : State) : Result := loadReg .h .a s
def execLdL_B (s : State) : Result := loadReg .l .b s
def execLdL_C (s : State) : Result := loadReg .l .c s
def execLdL_D (s : State) : Result := loadReg .l .d s
def execLdL_E (s : State) : Result := loadReg .l .e s
def execLdL_H (s : State) : Result := loadReg .l .h s
def execLdL_L (s : State) : Result := loadReg .l .l s
def execLdL_A (s : State) : Result := loadReg .l .a s
def execLdA_B (s : State) : Result := loadReg .a .b s
def execLdA_C (s : State) : Result := loadReg .a .c s
def execLdA_D (s : State) : Result := loadReg .a .d s
def execLdA_E (s : State) : Result := loadReg .a .e s
def execLdA_H (s : State) : Result := loadReg .a .h s
def execLdA_L (s : State) : Result := loadReg .a .l s
def execLdA_A (s : State) : Result := loadReg .a .a s

/-! `LD r, n8` (R163) -/

def execLdB_n8 (n : Byte) (s : State) : Result := loadImm .b n s
def execLdC_n8 (n : Byte) (s : State) : Result := loadImm .c n s
def execLdD_n8 (n : Byte) (s : State) : Result := loadImm .d n s
def execLdE_n8 (n : Byte) (s : State) : Result := loadImm .e n s
def execLdH_n8 (n : Byte) (s : State) : Result := loadImm .h n s
def execLdL_n8 (n : Byte) (s : State) : Result := loadImm .l n s
def execLdA_n8 (n : Byte) (s : State) : Result := loadImm .a n s

/-! `LD r, (HL)` (R164) -/

def execLdB_atHL (s : State) : Result := loadFrom .b s.hl 2 s
def execLdC_atHL (s : State) : Result := loadFrom .c s.hl 2 s
def execLdD_atHL (s : State) : Result := loadFrom .d s.hl 2 s
def execLdE_atHL (s : State) : Result := loadFrom .e s.hl 2 s
def execLdH_atHL (s : State) : Result := loadFrom .h s.hl 2 s
def execLdL_atHL (s : State) : Result := loadFrom .l s.hl 2 s
def execLdA_atHL (s : State) : Result := loadFrom .a s.hl 2 s

/-! `LD (HL), r` (R165) and `LD (HL), n8` (R166) -/

def execLdAtHL_B (s : State) : Result := storeTo s.hl (s.reg .b) 2 s
def execLdAtHL_C (s : State) : Result := storeTo s.hl (s.reg .c) 2 s
def execLdAtHL_D (s : State) : Result := storeTo s.hl (s.reg .d) 2 s
def execLdAtHL_E (s : State) : Result := storeTo s.hl (s.reg .e) 2 s
def execLdAtHL_H (s : State) : Result := storeTo s.hl (s.reg .h) 2 s
def execLdAtHL_L (s : State) : Result := storeTo s.hl (s.reg .l) 2 s
def execLdAtHL_A (s : State) : Result := storeTo s.hl (s.reg .a) 2 s
def execLdAtHL_n8 (n : Byte) (s : State) : Result := storeTo s.hl n 3 s

/-! A through BC, DE and an absolute address (R167 to R172) -/

def execLdA_atBC (s : State) : Result := loadFrom .a s.bc 2 s
def execLdA_atDE (s : State) : Result := loadFrom .a s.de 2 s
def execLdAtBC_A (s : State) : Result := storeTo s.bc s.regs.a 2 s
def execLdAtDE_A (s : State) : Result := storeTo s.de s.regs.a 2 s
def execLdA_a16 (a : Word) (s : State) : Result := loadFrom .a a 4 s
def execLdA16_A (a : Word) (s : State) : Result := storeTo a s.regs.a 4 s

/-! The high page (R173 to R176) -/

def execLdhA_atC (s : State) : Result := loadFrom .a (highPage s.regs.c) 2 s
def execLdhAtC_A (s : State) : Result := storeTo (highPage s.regs.c) s.regs.a 2 s
def execLdhA_a8 (n : Byte) (s : State) : Result := loadFrom .a (highPage n) 3 s
def execLdhA8_A (n : Byte) (s : State) : Result := storeTo (highPage n) s.regs.a 3 s

/-! Through HL with a post-increment or post-decrement (R177 to R180) -/

def execLdA_HLI (s : State) : Result := loadAStep 1 s
def execLdA_HLD (s : State) : Result := loadAStep (-1) s
def execLdHLI_A (s : State) : Result := storeAStep 1 s
def execLdHLD_A (s : State) : Result := storeAStep (-1) s

/-! `LD rr, n16` (R181) -/

def execLdBC_n16 (n : Word) (s : State) : Result := loadPair .bc n s
def execLdDE_n16 (n : Word) (s : State) : Result := loadPair .de n s
def execLdHL_n16 (n : Word) (s : State) : Result := loadPair .hl n s
def execLdSP_n16 (n : Word) (s : State) : Result := loadPair .sp n s

/-- `LD (a16), SP`: the low byte at a16, then the high byte at a16 + 1 (R182). -/
def storeSp (a : Word) (s : State) : Result :=
  s.withStore a (lo8 s.sp) fun t => t.withStore (a + 1) (hi8 s.sp) fun u => u.done 5

def execLdA16_SP (a : Word) (s : State) : Result := storeSp a s

/-- `LD SP, HL` (R183). -/
def execLdSP_HL (s : State) : Result := (s.setSp s.hl).done 2

/-! `PUSH rr` (R184) -/

def execPushBC (s : State) : Result := pushPair .bc s
def execPushDE (s : State) : Result := pushPair .de s
def execPushHL (s : State) : Result := pushPair .hl s
def execPushAF (s : State) : Result := pushPair .af s

/-! `POP rr` (R185, R186) -/

def execPopBC (s : State) : Result := popPair .bc s
def execPopDE (s : State) : Result := popPair .de s
def execPopHL (s : State) : Result := popPair .hl s
def execPopAF (s : State) : Result := popPair .af s

end Sys2Proof.Machine
end

