-- ==== Sys2Proof/Machine/Rotate.lean ====
section
/-! DEFINITION. Rotates, shifts and single-bit operations (spec/43_rotate_shift_bit.md). -/

namespace Sys2Proof.Machine

/-- The accumulator rotates (R270 to R273). -/
def rotA (op : ShiftOp) (s : State) : Result :=
  let r := shiftResult op s.regs.a s.flags.c
  ((s.setReg .a r.1).setFlags (rotAFlags r.2)).done 1

/-- A CB operation that writes its operand back: the read, then the flags, then the write; 2 M-cycles
for a register and 4 for (HL) (R274). -/
def cbModify (f : Byte → Byte) (g : Byte → Flags) (o : Operand8) (s : State) : Result :=
  match o with
  | .reg r => ((s.setReg r (f (s.reg r))).setFlags (g (s.reg r))).done 2
  | .atHL => s.withByte s.hl fun v => (s.setFlags (g v)).withStore s.hl (f v) fun t => t.done 4

/-- The CB rotates and shifts (R275 to R290). -/
def cbShift (op : ShiftOp) (o : Operand8) (s : State) : Result :=
  cbModify (fun v => (shiftResult op v s.flags.c).1)
    (fun v => shiftFlags (shiftResult op v s.flags.c).1 (shiftResult op v s.flags.c).2) o s

/-- `BIT b` (R291, R292): no write-back; 2 M-cycles for a register and 3 for (HL) (R274). -/
def cbBit (b : Nat) (o : Operand8) (s : State) : Result :=
  match o with
  | .reg r => (s.setFlags (bitFlags (s.reg r) b s.flags)).done 2
  | .atHL => s.withByte s.hl fun v => (s.setFlags (bitFlags v b s.flags)).done 3

/-- `RES b`, no flag changed (R293, R294). -/
def cbRes (b : Nat) (o : Operand8) (s : State) : Result :=
  cbModify (fun v => v &&& ~~~ bit8 b) (fun _ => s.flags) o s

/-- `SET b`, no flag changed (R295, R296). -/
def cbSet (b : Nat) (o : Operand8) (s : State) : Result :=
  cbModify (fun v => v ||| bit8 b) (fun _ => s.flags) o s

/-- The CB row of the byte `c`, by its fields (R133): what PREFIX CB runs (R345). -/
def cbRow (c : Byte) (s : State) : Result :=
  let y := c.extractLsb' 3 3
  let o := operand8 (c.extractLsb' 0 3)
  pick4 (c.extractLsb' 6 2) (cbShift (shiftOpOf y) o s) (cbBit y.toNat o s) (cbRes y.toNat o s)
    (cbSet y.toNat o s)

/-! RLCA, RRCA, RLA, RRA (R270 to R273) -/

def execRlca (s : State) : Result := rotA .rlc s
def execRrca (s : State) : Result := rotA .rrc s
def execRla (s : State) : Result := rotA .rl s
def execRra (s : State) : Result := rotA .rr s

/-! RLC (R275, R276) -/

def execRlc_B (s : State) : Result := cbShift .rlc (.reg .b) s
def execRlc_C (s : State) : Result := cbShift .rlc (.reg .c) s
def execRlc_D (s : State) : Result := cbShift .rlc (.reg .d) s
def execRlc_E (s : State) : Result := cbShift .rlc (.reg .e) s
def execRlc_H (s : State) : Result := cbShift .rlc (.reg .h) s
def execRlc_L (s : State) : Result := cbShift .rlc (.reg .l) s
def execRlc_atHL (s : State) : Result := cbShift .rlc .atHL s
def execRlc_A (s : State) : Result := cbShift .rlc (.reg .a) s

/-! RRC (R277, R278) -/

def execRrc_B (s : State) : Result := cbShift .rrc (.reg .b) s
def execRrc_C (s : State) : Result := cbShift .rrc (.reg .c) s
def execRrc_D (s : State) : Result := cbShift .rrc (.reg .d) s
def execRrc_E (s : State) : Result := cbShift .rrc (.reg .e) s
def execRrc_H (s : State) : Result := cbShift .rrc (.reg .h) s
def execRrc_L (s : State) : Result := cbShift .rrc (.reg .l) s
def execRrc_atHL (s : State) : Result := cbShift .rrc .atHL s
def execRrc_A (s : State) : Result := cbShift .rrc (.reg .a) s

/-! RL (R279, R280) -/

def execRl_B (s : State) : Result := cbShift .rl (.reg .b) s
def execRl_C (s : State) : Result := cbShift .rl (.reg .c) s
def execRl_D (s : State) : Result := cbShift .rl (.reg .d) s
def execRl_E (s : State) : Result := cbShift .rl (.reg .e) s
def execRl_H (s : State) : Result := cbShift .rl (.reg .h) s
def execRl_L (s : State) : Result := cbShift .rl (.reg .l) s
def execRl_atHL (s : State) : Result := cbShift .rl .atHL s
def execRl_A (s : State) : Result := cbShift .rl (.reg .a) s

/-! RR (R281, R282) -/

def execRr_B (s : State) : Result := cbShift .rr (.reg .b) s
def execRr_C (s : State) : Result := cbShift .rr (.reg .c) s
def execRr_D (s : State) : Result := cbShift .rr (.reg .d) s
def execRr_E (s : State) : Result := cbShift .rr (.reg .e) s
def execRr_H (s : State) : Result := cbShift .rr (.reg .h) s
def execRr_L (s : State) : Result := cbShift .rr (.reg .l) s
def execRr_atHL (s : State) : Result := cbShift .rr .atHL s
def execRr_A (s : State) : Result := cbShift .rr (.reg .a) s

/-! SLA (R283, R284) -/

def execSla_B (s : State) : Result := cbShift .sla (.reg .b) s
def execSla_C (s : State) : Result := cbShift .sla (.reg .c) s
def execSla_D (s : State) : Result := cbShift .sla (.reg .d) s
def execSla_E (s : State) : Result := cbShift .sla (.reg .e) s
def execSla_H (s : State) : Result := cbShift .sla (.reg .h) s
def execSla_L (s : State) : Result := cbShift .sla (.reg .l) s
def execSla_atHL (s : State) : Result := cbShift .sla .atHL s
def execSla_A (s : State) : Result := cbShift .sla (.reg .a) s

/-! SRA (R285, R286) -/

def execSra_B (s : State) : Result := cbShift .sra (.reg .b) s
def execSra_C (s : State) : Result := cbShift .sra (.reg .c) s
def execSra_D (s : State) : Result := cbShift .sra (.reg .d) s
def execSra_E (s : State) : Result := cbShift .sra (.reg .e) s
def execSra_H (s : State) : Result := cbShift .sra (.reg .h) s
def execSra_L (s : State) : Result := cbShift .sra (.reg .l) s
def execSra_atHL (s : State) : Result := cbShift .sra .atHL s
def execSra_A (s : State) : Result := cbShift .sra (.reg .a) s

/-! SWAP (R287, R288) -/

def execSwap_B (s : State) : Result := cbShift .swap (.reg .b) s
def execSwap_C (s : State) : Result := cbShift .swap (.reg .c) s
def execSwap_D (s : State) : Result := cbShift .swap (.reg .d) s
def execSwap_E (s : State) : Result := cbShift .swap (.reg .e) s
def execSwap_H (s : State) : Result := cbShift .swap (.reg .h) s
def execSwap_L (s : State) : Result := cbShift .swap (.reg .l) s
def execSwap_atHL (s : State) : Result := cbShift .swap .atHL s
def execSwap_A (s : State) : Result := cbShift .swap (.reg .a) s

/-! SRL (R289, R290) -/

def execSrl_B (s : State) : Result := cbShift .srl (.reg .b) s
def execSrl_C (s : State) : Result := cbShift .srl (.reg .c) s
def execSrl_D (s : State) : Result := cbShift .srl (.reg .d) s
def execSrl_E (s : State) : Result := cbShift .srl (.reg .e) s
def execSrl_H (s : State) : Result := cbShift .srl (.reg .h) s
def execSrl_L (s : State) : Result := cbShift .srl (.reg .l) s
def execSrl_atHL (s : State) : Result := cbShift .srl .atHL s
def execSrl_A (s : State) : Result := cbShift .srl (.reg .a) s

/-! BIT (R291, R292) -/

def execBit0_B (s : State) : Result := cbBit 0 (.reg .b) s
def execBit0_C (s : State) : Result := cbBit 0 (.reg .c) s
def execBit0_D (s : State) : Result := cbBit 0 (.reg .d) s
def execBit0_E (s : State) : Result := cbBit 0 (.reg .e) s
def execBit0_H (s : State) : Result := cbBit 0 (.reg .h) s
def execBit0_L (s : State) : Result := cbBit 0 (.reg .l) s
def execBit0_atHL (s : State) : Result := cbBit 0 .atHL s
def execBit0_A (s : State) : Result := cbBit 0 (.reg .a) s
def execBit1_B (s : State) : Result := cbBit 1 (.reg .b) s
def execBit1_C (s : State) : Result := cbBit 1 (.reg .c) s
def execBit1_D (s : State) : Result := cbBit 1 (.reg .d) s
def execBit1_E (s : State) : Result := cbBit 1 (.reg .e) s
def execBit1_H (s : State) : Result := cbBit 1 (.reg .h) s
def execBit1_L (s : State) : Result := cbBit 1 (.reg .l) s
def execBit1_atHL (s : State) : Result := cbBit 1 .atHL s
def execBit1_A (s : State) : Result := cbBit 1 (.reg .a) s
def execBit2_B (s : State) : Result := cbBit 2 (.reg .b) s
def execBit2_C (s : State) : Result := cbBit 2 (.reg .c) s
def execBit2_D (s : State) : Result := cbBit 2 (.reg .d) s
def execBit2_E (s : State) : Result := cbBit 2 (.reg .e) s
def execBit2_H (s : State) : Result := cbBit 2 (.reg .h) s
def execBit2_L (s : State) : Result := cbBit 2 (.reg .l) s
def execBit2_atHL (s : State) : Result := cbBit 2 .atHL s
def execBit2_A (s : State) : Result := cbBit 2 (.reg .a) s
def execBit3_B (s : State) : Result := cbBit 3 (.reg .b) s
def execBit3_C (s : State) : Result := cbBit 3 (.reg .c) s
def execBit3_D (s : State) : Result := cbBit 3 (.reg .d) s
def execBit3_E (s : State) : Result := cbBit 3 (.reg .e) s
def execBit3_H (s : State) : Result := cbBit 3 (.reg .h) s
def execBit3_L (s : State) : Result := cbBit 3 (.reg .l) s
def execBit3_atHL (s : State) : Result := cbBit 3 .atHL s
def execBit3_A (s : State) : Result := cbBit 3 (.reg .a) s
def execBit4_B (s : State) : Result := cbBit 4 (.reg .b) s
def execBit4_C (s : State) : Result := cbBit 4 (.reg .c) s
def execBit4_D (s : State) : Result := cbBit 4 (.reg .d) s
def execBit4_E (s : State) : Result := cbBit 4 (.reg .e) s
def execBit4_H (s : State) : Result := cbBit 4 (.reg .h) s
def execBit4_L (s : State) : Result := cbBit 4 (.reg .l) s
def execBit4_atHL (s : State) : Result := cbBit 4 .atHL s
def execBit4_A (s : State) : Result := cbBit 4 (.reg .a) s
def execBit5_B (s : State) : Result := cbBit 5 (.reg .b) s
def execBit5_C (s : State) : Result := cbBit 5 (.reg .c) s
def execBit5_D (s : State) : Result := cbBit 5 (.reg .d) s
def execBit5_E (s : State) : Result := cbBit 5 (.reg .e) s
def execBit5_H (s : State) : Result := cbBit 5 (.reg .h) s
def execBit5_L (s : State) : Result := cbBit 5 (.reg .l) s
def execBit5_atHL (s : State) : Result := cbBit 5 .atHL s
def execBit5_A (s : State) : Result := cbBit 5 (.reg .a) s
def execBit6_B (s : State) : Result := cbBit 6 (.reg .b) s
def execBit6_C (s : State) : Result := cbBit 6 (.reg .c) s
def execBit6_D (s : State) : Result := cbBit 6 (.reg .d) s
def execBit6_E (s : State) : Result := cbBit 6 (.reg .e) s
def execBit6_H (s : State) : Result := cbBit 6 (.reg .h) s
def execBit6_L (s : State) : Result := cbBit 6 (.reg .l) s
def execBit6_atHL (s : State) : Result := cbBit 6 .atHL s
def execBit6_A (s : State) : Result := cbBit 6 (.reg .a) s
def execBit7_B (s : State) : Result := cbBit 7 (.reg .b) s
def execBit7_C (s : State) : Result := cbBit 7 (.reg .c) s
def execBit7_D (s : State) : Result := cbBit 7 (.reg .d) s
def execBit7_E (s : State) : Result := cbBit 7 (.reg .e) s
def execBit7_H (s : State) : Result := cbBit 7 (.reg .h) s
def execBit7_L (s : State) : Result := cbBit 7 (.reg .l) s
def execBit7_atHL (s : State) : Result := cbBit 7 .atHL s
def execBit7_A (s : State) : Result := cbBit 7 (.reg .a) s

/-! RES (R293, R294) -/

def execRes0_B (s : State) : Result := cbRes 0 (.reg .b) s
def execRes0_C (s : State) : Result := cbRes 0 (.reg .c) s
def execRes0_D (s : State) : Result := cbRes 0 (.reg .d) s
def execRes0_E (s : State) : Result := cbRes 0 (.reg .e) s
def execRes0_H (s : State) : Result := cbRes 0 (.reg .h) s
def execRes0_L (s : State) : Result := cbRes 0 (.reg .l) s
def execRes0_atHL (s : State) : Result := cbRes 0 .atHL s
def execRes0_A (s : State) : Result := cbRes 0 (.reg .a) s
def execRes1_B (s : State) : Result := cbRes 1 (.reg .b) s
def execRes1_C (s : State) : Result := cbRes 1 (.reg .c) s
def execRes1_D (s : State) : Result := cbRes 1 (.reg .d) s
def execRes1_E (s : State) : Result := cbRes 1 (.reg .e) s
def execRes1_H (s : State) : Result := cbRes 1 (.reg .h) s
def execRes1_L (s : State) : Result := cbRes 1 (.reg .l) s
def execRes1_atHL (s : State) : Result := cbRes 1 .atHL s
def execRes1_A (s : State) : Result := cbRes 1 (.reg .a) s
def execRes2_B (s : State) : Result := cbRes 2 (.reg .b) s
def execRes2_C (s : State) : Result := cbRes 2 (.reg .c) s
def execRes2_D (s : State) : Result := cbRes 2 (.reg .d) s
def execRes2_E (s : State) : Result := cbRes 2 (.reg .e) s
def execRes2_H (s : State) : Result := cbRes 2 (.reg .h) s
def execRes2_L (s : State) : Result := cbRes 2 (.reg .l) s
def execRes2_atHL (s : State) : Result := cbRes 2 .atHL s
def execRes2_A (s : State) : Result := cbRes 2 (.reg .a) s
def execRes3_B (s : State) : Result := cbRes 3 (.reg .b) s
def execRes3_C (s : State) : Result := cbRes 3 (.reg .c) s
def execRes3_D (s : State) : Result := cbRes 3 (.reg .d) s
def execRes3_E (s : State) : Result := cbRes 3 (.reg .e) s
def execRes3_H (s : State) : Result := cbRes 3 (.reg .h) s
def execRes3_L (s : State) : Result := cbRes 3 (.reg .l) s
def execRes3_atHL (s : State) : Result := cbRes 3 .atHL s
def execRes3_A (s : State) : Result := cbRes 3 (.reg .a) s
def execRes4_B (s : State) : Result := cbRes 4 (.reg .b) s
def execRes4_C (s : State) : Result := cbRes 4 (.reg .c) s
def execRes4_D (s : State) : Result := cbRes 4 (.reg .d) s
def execRes4_E (s : State) : Result := cbRes 4 (.reg .e) s
def execRes4_H (s : State) : Result := cbRes 4 (.reg .h) s
def execRes4_L (s : State) : Result := cbRes 4 (.reg .l) s
def execRes4_atHL (s : State) : Result := cbRes 4 .atHL s
def execRes4_A (s : State) : Result := cbRes 4 (.reg .a) s
def execRes5_B (s : State) : Result := cbRes 5 (.reg .b) s
def execRes5_C (s : State) : Result := cbRes 5 (.reg .c) s
def execRes5_D (s : State) : Result := cbRes 5 (.reg .d) s
def execRes5_E (s : State) : Result := cbRes 5 (.reg .e) s
def execRes5_H (s : State) : Result := cbRes 5 (.reg .h) s
def execRes5_L (s : State) : Result := cbRes 5 (.reg .l) s
def execRes5_atHL (s : State) : Result := cbRes 5 .atHL s
def execRes5_A (s : State) : Result := cbRes 5 (.reg .a) s
def execRes6_B (s : State) : Result := cbRes 6 (.reg .b) s
def execRes6_C (s : State) : Result := cbRes 6 (.reg .c) s
def execRes6_D (s : State) : Result := cbRes 6 (.reg .d) s
def execRes6_E (s : State) : Result := cbRes 6 (.reg .e) s
def execRes6_H (s : State) : Result := cbRes 6 (.reg .h) s
def execRes6_L (s : State) : Result := cbRes 6 (.reg .l) s
def execRes6_atHL (s : State) : Result := cbRes 6 .atHL s
def execRes6_A (s : State) : Result := cbRes 6 (.reg .a) s
def execRes7_B (s : State) : Result := cbRes 7 (.reg .b) s
def execRes7_C (s : State) : Result := cbRes 7 (.reg .c) s
def execRes7_D (s : State) : Result := cbRes 7 (.reg .d) s
def execRes7_E (s : State) : Result := cbRes 7 (.reg .e) s
def execRes7_H (s : State) : Result := cbRes 7 (.reg .h) s
def execRes7_L (s : State) : Result := cbRes 7 (.reg .l) s
def execRes7_atHL (s : State) : Result := cbRes 7 .atHL s
def execRes7_A (s : State) : Result := cbRes 7 (.reg .a) s

/-! SET (R295, R296) -/

def execSet0_B (s : State) : Result := cbSet 0 (.reg .b) s
def execSet0_C (s : State) : Result := cbSet 0 (.reg .c) s
def execSet0_D (s : State) : Result := cbSet 0 (.reg .d) s
def execSet0_E (s : State) : Result := cbSet 0 (.reg .e) s
def execSet0_H (s : State) : Result := cbSet 0 (.reg .h) s
def execSet0_L (s : State) : Result := cbSet 0 (.reg .l) s
def execSet0_atHL (s : State) : Result := cbSet 0 .atHL s
def execSet0_A (s : State) : Result := cbSet 0 (.reg .a) s
def execSet1_B (s : State) : Result := cbSet 1 (.reg .b) s
def execSet1_C (s : State) : Result := cbSet 1 (.reg .c) s
def execSet1_D (s : State) : Result := cbSet 1 (.reg .d) s
def execSet1_E (s : State) : Result := cbSet 1 (.reg .e) s
def execSet1_H (s : State) : Result := cbSet 1 (.reg .h) s
def execSet1_L (s : State) : Result := cbSet 1 (.reg .l) s
def execSet1_atHL (s : State) : Result := cbSet 1 .atHL s
def execSet1_A (s : State) : Result := cbSet 1 (.reg .a) s
def execSet2_B (s : State) : Result := cbSet 2 (.reg .b) s
def execSet2_C (s : State) : Result := cbSet 2 (.reg .c) s
def execSet2_D (s : State) : Result := cbSet 2 (.reg .d) s
def execSet2_E (s : State) : Result := cbSet 2 (.reg .e) s
def execSet2_H (s : State) : Result := cbSet 2 (.reg .h) s
def execSet2_L (s : State) : Result := cbSet 2 (.reg .l) s
def execSet2_atHL (s : State) : Result := cbSet 2 .atHL s
def execSet2_A (s : State) : Result := cbSet 2 (.reg .a) s
def execSet3_B (s : State) : Result := cbSet 3 (.reg .b) s
def execSet3_C (s : State) : Result := cbSet 3 (.reg .c) s
def execSet3_D (s : State) : Result := cbSet 3 (.reg .d) s
def execSet3_E (s : State) : Result := cbSet 3 (.reg .e) s
def execSet3_H (s : State) : Result := cbSet 3 (.reg .h) s
def execSet3_L (s : State) : Result := cbSet 3 (.reg .l) s
def execSet3_atHL (s : State) : Result := cbSet 3 .atHL s
def execSet3_A (s : State) : Result := cbSet 3 (.reg .a) s
def execSet4_B (s : State) : Result := cbSet 4 (.reg .b) s
def execSet4_C (s : State) : Result := cbSet 4 (.reg .c) s
def execSet4_D (s : State) : Result := cbSet 4 (.reg .d) s
def execSet4_E (s : State) : Result := cbSet 4 (.reg .e) s
def execSet4_H (s : State) : Result := cbSet 4 (.reg .h) s
def execSet4_L (s : State) : Result := cbSet 4 (.reg .l) s
def execSet4_atHL (s : State) : Result := cbSet 4 .atHL s
def execSet4_A (s : State) : Result := cbSet 4 (.reg .a) s
def execSet5_B (s : State) : Result := cbSet 5 (.reg .b) s
def execSet5_C (s : State) : Result := cbSet 5 (.reg .c) s
def execSet5_D (s : State) : Result := cbSet 5 (.reg .d) s
def execSet5_E (s : State) : Result := cbSet 5 (.reg .e) s
def execSet5_H (s : State) : Result := cbSet 5 (.reg .h) s
def execSet5_L (s : State) : Result := cbSet 5 (.reg .l) s
def execSet5_atHL (s : State) : Result := cbSet 5 .atHL s
def execSet5_A (s : State) : Result := cbSet 5 (.reg .a) s
def execSet6_B (s : State) : Result := cbSet 6 (.reg .b) s
def execSet6_C (s : State) : Result := cbSet 6 (.reg .c) s
def execSet6_D (s : State) : Result := cbSet 6 (.reg .d) s
def execSet6_E (s : State) : Result := cbSet 6 (.reg .e) s
def execSet6_H (s : State) : Result := cbSet 6 (.reg .h) s
def execSet6_L (s : State) : Result := cbSet 6 (.reg .l) s
def execSet6_atHL (s : State) : Result := cbSet 6 .atHL s
def execSet6_A (s : State) : Result := cbSet 6 (.reg .a) s
def execSet7_B (s : State) : Result := cbSet 7 (.reg .b) s
def execSet7_C (s : State) : Result := cbSet 7 (.reg .c) s
def execSet7_D (s : State) : Result := cbSet 7 (.reg .d) s
def execSet7_E (s : State) : Result := cbSet 7 (.reg .e) s
def execSet7_H (s : State) : Result := cbSet 7 (.reg .h) s
def execSet7_L (s : State) : Result := cbSet 7 (.reg .l) s
def execSet7_atHL (s : State) : Result := cbSet 7 .atHL s
def execSet7_A (s : State) : Result := cbSet 7 (.reg .a) s

end Sys2Proof.Machine
end

