-- ==== Sys2Proof/Machine/System.lean ====
section
/-! DEFINITION. System, interrupt-control and prefix instructions (spec/45_system.md). -/

namespace Sys2Proof.Machine

/-- `NOP` (R340). -/
def execNop (s : State) : Result := s.done 1

/-- `HALT` (R341). -/
def execHalt (s : State) : Result := ({ s with halted := true } : State).done 1

/-- `STOP` (R342): refused, with PC one past 0x10 and nothing else changed (R364, log 9). -/
def execStop (s : State) : Result := .refused (.stop { s with refused := some .stop })

/-- `DI` (R343). -/
def execDi (s : State) : Result := ({ s with ime := false, eiDelay := 0 } : State).done 1

/-- `EI` (R344): the end of this step and of the next count the delay down (R385). -/
def execEi (s : State) : Result :=
  (if s.ime = false ∧ s.eiDelay = 0 then { s with eiDelay := 2 } else s).done 1

/-- `PREFIX CB` (R345): the next byte is fetched and its CB row runs, with the cycles of that row. -/
def execPrefixCb (s : State) : Result := s.fetch8 fun c t => cbRow c t

/-- An opcode with no table entry (R346): PC is already past it. -/
def illegal (op : Byte) (s : State) : Result := .fault (s.fatal (.illegalOpcode op (s.pc - 1)))

/-! The 11 illegal bytes (R142, R346) -/

def execIllegalD3 (s : State) : Result := illegal 0xD3 s
def execIllegalDB (s : State) : Result := illegal 0xDB s
def execIllegalDD (s : State) : Result := illegal 0xDD s
def execIllegalE3 (s : State) : Result := illegal 0xE3 s
def execIllegalE4 (s : State) : Result := illegal 0xE4 s
def execIllegalEB (s : State) : Result := illegal 0xEB s
def execIllegalEC (s : State) : Result := illegal 0xEC s
def execIllegalED (s : State) : Result := illegal 0xED s
def execIllegalF4 (s : State) : Result := illegal 0xF4 s
def execIllegalFC (s : State) : Result := illegal 0xFC s
def execIllegalFD (s : State) : Result := illegal 0xFD s

end Sys2Proof.Machine
end

