-- ==== Sys2Proof/Machine/Dispatch.lean ====
section
/-! DEFINITION. Each instruction and its meaning, in the order of spec/opcode_table.json. `exec i s` runs
`i` on the state after its bytes were fetched: PC is past the last fetched byte (R34, R380). -/

namespace Sys2Proof.Machine

def exec (i : Instr) (s : State) : Host.Outcome State Fault Refusal :=
  match i with
  | .nop => Sys2Proof.Machine.execNop s
  | .ldBC_n16 n => Sys2Proof.Machine.execLdBC_n16 n s
  | .ldAtBC_A => Sys2Proof.Machine.execLdAtBC_A s
  | .incBC => Sys2Proof.Machine.execIncBC s
  | .incB => Sys2Proof.Machine.execIncB s
  | .decB => Sys2Proof.Machine.execDecB s
  | .ldB_n8 n => Sys2Proof.Machine.execLdB_n8 n s
  | .rlca => Sys2Proof.Machine.execRlca s
  | .ldA16_SP a => Sys2Proof.Machine.execLdA16_SP a s
  | .addHL_BC => Sys2Proof.Machine.execAddHL_BC s
  | .ldA_atBC => Sys2Proof.Machine.execLdA_atBC s
  | .decBC => Sys2Proof.Machine.execDecBC s
  | .incC => Sys2Proof.Machine.execIncC s
  | .decC => Sys2Proof.Machine.execDecC s
  | .ldC_n8 n => Sys2Proof.Machine.execLdC_n8 n s
  | .rrca => Sys2Proof.Machine.execRrca s
  | .stop => Sys2Proof.Machine.execStop s
  | .ldDE_n16 n => Sys2Proof.Machine.execLdDE_n16 n s
  | .ldAtDE_A => Sys2Proof.Machine.execLdAtDE_A s
  | .incDE => Sys2Proof.Machine.execIncDE s
  | .incD => Sys2Proof.Machine.execIncD s
  | .decD => Sys2Proof.Machine.execDecD s
  | .ldD_n8 n => Sys2Proof.Machine.execLdD_n8 n s
  | .rla => Sys2Proof.Machine.execRla s
  | .jr e => Sys2Proof.Machine.execJr e s
  | .addHL_DE => Sys2Proof.Machine.execAddHL_DE s
  | .ldA_atDE => Sys2Proof.Machine.execLdA_atDE s
  | .decDE => Sys2Proof.Machine.execDecDE s
  | .incE => Sys2Proof.Machine.execIncE s
  | .decE => Sys2Proof.Machine.execDecE s
  | .ldE_n8 n => Sys2Proof.Machine.execLdE_n8 n s
  | .rra => Sys2Proof.Machine.execRra s
  | .jrNZ e => Sys2Proof.Machine.execJrNZ e s
  | .ldHL_n16 n => Sys2Proof.Machine.execLdHL_n16 n s
  | .ldHLI_A => Sys2Proof.Machine.execLdHLI_A s
  | .incHL => Sys2Proof.Machine.execIncHL s
  | .incH => Sys2Proof.Machine.execIncH s
  | .decH => Sys2Proof.Machine.execDecH s
  | .ldH_n8 n => Sys2Proof.Machine.execLdH_n8 n s
  | .daa => Sys2Proof.Machine.execDaa s
  | .jrZ e => Sys2Proof.Machine.execJrZ e s
  | .addHL_HL => Sys2Proof.Machine.execAddHL_HL s
  | .ldA_HLI => Sys2Proof.Machine.execLdA_HLI s
  | .decHL => Sys2Proof.Machine.execDecHL s
  | .incL => Sys2Proof.Machine.execIncL s
  | .decL => Sys2Proof.Machine.execDecL s
  | .ldL_n8 n => Sys2Proof.Machine.execLdL_n8 n s
  | .cpl => Sys2Proof.Machine.execCpl s
  | .jrNC e => Sys2Proof.Machine.execJrNC e s
  | .ldSP_n16 n => Sys2Proof.Machine.execLdSP_n16 n s
  | .ldHLD_A => Sys2Proof.Machine.execLdHLD_A s
  | .incSP => Sys2Proof.Machine.execIncSP s
  | .incAtHL => Sys2Proof.Machine.execIncAtHL s
  | .decAtHL => Sys2Proof.Machine.execDecAtHL s
  | .ldAtHL_n8 n => Sys2Proof.Machine.execLdAtHL_n8 n s
  | .scf => Sys2Proof.Machine.execScf s
  | .jrC e => Sys2Proof.Machine.execJrC e s
  | .addHL_SP => Sys2Proof.Machine.execAddHL_SP s
  | .ldA_HLD => Sys2Proof.Machine.execLdA_HLD s
  | .decSP => Sys2Proof.Machine.execDecSP s
  | .incA => Sys2Proof.Machine.execIncA s
  | .decA => Sys2Proof.Machine.execDecA s
  | .ldA_n8 n => Sys2Proof.Machine.execLdA_n8 n s
  | .ccf => Sys2Proof.Machine.execCcf s
  | .ldB_B => Sys2Proof.Machine.execLdB_B s
  | .ldB_C => Sys2Proof.Machine.execLdB_C s
  | .ldB_D => Sys2Proof.Machine.execLdB_D s
  | .ldB_E => Sys2Proof.Machine.execLdB_E s
  | .ldB_H => Sys2Proof.Machine.execLdB_H s
  | .ldB_L => Sys2Proof.Machine.execLdB_L s
  | .ldB_atHL => Sys2Proof.Machine.execLdB_atHL s
  | .ldB_A => Sys2Proof.Machine.execLdB_A s
  | .ldC_B => Sys2Proof.Machine.execLdC_B s
  | .ldC_C => Sys2Proof.Machine.execLdC_C s
  | .ldC_D => Sys2Proof.Machine.execLdC_D s
  | .ldC_E => Sys2Proof.Machine.execLdC_E s
  | .ldC_H => Sys2Proof.Machine.execLdC_H s
  | .ldC_L => Sys2Proof.Machine.execLdC_L s
  | .ldC_atHL => Sys2Proof.Machine.execLdC_atHL s
  | .ldC_A => Sys2Proof.Machine.execLdC_A s
  | .ldD_B => Sys2Proof.Machine.execLdD_B s
  | .ldD_C => Sys2Proof.Machine.execLdD_C s
  | .ldD_D => Sys2Proof.Machine.execLdD_D s
  | .ldD_E => Sys2Proof.Machine.execLdD_E s
  | .ldD_H => Sys2Proof.Machine.execLdD_H s
  | .ldD_L => Sys2Proof.Machine.execLdD_L s
  | .ldD_atHL => Sys2Proof.Machine.execLdD_atHL s
  | .ldD_A => Sys2Proof.Machine.execLdD_A s
  | .ldE_B => Sys2Proof.Machine.execLdE_B s
  | .ldE_C => Sys2Proof.Machine.execLdE_C s
  | .ldE_D => Sys2Proof.Machine.execLdE_D s
  | .ldE_E => Sys2Proof.Machine.execLdE_E s
  | .ldE_H => Sys2Proof.Machine.execLdE_H s
  | .ldE_L => Sys2Proof.Machine.execLdE_L s
  | .ldE_atHL => Sys2Proof.Machine.execLdE_atHL s
  | .ldE_A => Sys2Proof.Machine.execLdE_A s
  | .ldH_B => Sys2Proof.Machine.execLdH_B s
  | .ldH_C => Sys2Proof.Machine.execLdH_C s
  | .ldH_D => Sys2Proof.Machine.execLdH_D s
  | .ldH_E => Sys2Proof.Machine.execLdH_E s
  | .ldH_H => Sys2Proof.Machine.execLdH_H s
  | .ldH_L => Sys2Proof.Machine.execLdH_L s
  | .ldH_atHL => Sys2Proof.Machine.execLdH_atHL s
  | .ldH_A => Sys2Proof.Machine.execLdH_A s
  | .ldL_B => Sys2Proof.Machine.execLdL_B s
  | .ldL_C => Sys2Proof.Machine.execLdL_C s
  | .ldL_D => Sys2Proof.Machine.execLdL_D s
  | .ldL_E => Sys2Proof.Machine.execLdL_E s
  | .ldL_H => Sys2Proof.Machine.execLdL_H s
  | .ldL_L => Sys2Proof.Machine.execLdL_L s
  | .ldL_atHL => Sys2Proof.Machine.execLdL_atHL s
  | .ldL_A => Sys2Proof.Machine.execLdL_A s
  | .ldAtHL_B => Sys2Proof.Machine.execLdAtHL_B s
  | .ldAtHL_C => Sys2Proof.Machine.execLdAtHL_C s
  | .ldAtHL_D => Sys2Proof.Machine.execLdAtHL_D s
  | .ldAtHL_E => Sys2Proof.Machine.execLdAtHL_E s
  | .ldAtHL_H => Sys2Proof.Machine.execLdAtHL_H s
  | .ldAtHL_L => Sys2Proof.Machine.execLdAtHL_L s
  | .halt => Sys2Proof.Machine.execHalt s
  | .ldAtHL_A => Sys2Proof.Machine.execLdAtHL_A s
  | .ldA_B => Sys2Proof.Machine.execLdA_B s
  | .ldA_C => Sys2Proof.Machine.execLdA_C s
  | .ldA_D => Sys2Proof.Machine.execLdA_D s
  | .ldA_E => Sys2Proof.Machine.execLdA_E s
  | .ldA_H => Sys2Proof.Machine.execLdA_H s
  | .ldA_L => Sys2Proof.Machine.execLdA_L s
  | .ldA_atHL => Sys2Proof.Machine.execLdA_atHL s
  | .ldA_A => Sys2Proof.Machine.execLdA_A s
  | .add_B => Sys2Proof.Machine.execAdd_B s
  | .add_C => Sys2Proof.Machine.execAdd_C s
  | .add_D => Sys2Proof.Machine.execAdd_D s
  | .add_E => Sys2Proof.Machine.execAdd_E s
  | .add_H => Sys2Proof.Machine.execAdd_H s
  | .add_L => Sys2Proof.Machine.execAdd_L s
  | .add_atHL => Sys2Proof.Machine.execAdd_atHL s
  | .add_A => Sys2Proof.Machine.execAdd_A s
  | .adc_B => Sys2Proof.Machine.execAdc_B s
  | .adc_C => Sys2Proof.Machine.execAdc_C s
  | .adc_D => Sys2Proof.Machine.execAdc_D s
  | .adc_E => Sys2Proof.Machine.execAdc_E s
  | .adc_H => Sys2Proof.Machine.execAdc_H s
  | .adc_L => Sys2Proof.Machine.execAdc_L s
  | .adc_atHL => Sys2Proof.Machine.execAdc_atHL s
  | .adc_A => Sys2Proof.Machine.execAdc_A s
  | .sub_B => Sys2Proof.Machine.execSub_B s
  | .sub_C => Sys2Proof.Machine.execSub_C s
  | .sub_D => Sys2Proof.Machine.execSub_D s
  | .sub_E => Sys2Proof.Machine.execSub_E s
  | .sub_H => Sys2Proof.Machine.execSub_H s
  | .sub_L => Sys2Proof.Machine.execSub_L s
  | .sub_atHL => Sys2Proof.Machine.execSub_atHL s
  | .sub_A => Sys2Proof.Machine.execSub_A s
  | .sbc_B => Sys2Proof.Machine.execSbc_B s
  | .sbc_C => Sys2Proof.Machine.execSbc_C s
  | .sbc_D => Sys2Proof.Machine.execSbc_D s
  | .sbc_E => Sys2Proof.Machine.execSbc_E s
  | .sbc_H => Sys2Proof.Machine.execSbc_H s
  | .sbc_L => Sys2Proof.Machine.execSbc_L s
  | .sbc_atHL => Sys2Proof.Machine.execSbc_atHL s
  | .sbc_A => Sys2Proof.Machine.execSbc_A s
  | .and_B => Sys2Proof.Machine.execAnd_B s
  | .and_C => Sys2Proof.Machine.execAnd_C s
  | .and_D => Sys2Proof.Machine.execAnd_D s
  | .and_E => Sys2Proof.Machine.execAnd_E s
  | .and_H => Sys2Proof.Machine.execAnd_H s
  | .and_L => Sys2Proof.Machine.execAnd_L s
  | .and_atHL => Sys2Proof.Machine.execAnd_atHL s
  | .and_A => Sys2Proof.Machine.execAnd_A s
  | .xor_B => Sys2Proof.Machine.execXor_B s
  | .xor_C => Sys2Proof.Machine.execXor_C s
  | .xor_D => Sys2Proof.Machine.execXor_D s
  | .xor_E => Sys2Proof.Machine.execXor_E s
  | .xor_H => Sys2Proof.Machine.execXor_H s
  | .xor_L => Sys2Proof.Machine.execXor_L s
  | .xor_atHL => Sys2Proof.Machine.execXor_atHL s
  | .xor_A => Sys2Proof.Machine.execXor_A s
  | .or_B => Sys2Proof.Machine.execOr_B s
  | .or_C => Sys2Proof.Machine.execOr_C s
  | .or_D => Sys2Proof.Machine.execOr_D s
  | .or_E => Sys2Proof.Machine.execOr_E s
  | .or_H => Sys2Proof.Machine.execOr_H s
  | .or_L => Sys2Proof.Machine.execOr_L s
  | .or_atHL => Sys2Proof.Machine.execOr_atHL s
  | .or_A => Sys2Proof.Machine.execOr_A s
  | .cp_B => Sys2Proof.Machine.execCp_B s
  | .cp_C => Sys2Proof.Machine.execCp_C s
  | .cp_D => Sys2Proof.Machine.execCp_D s
  | .cp_E => Sys2Proof.Machine.execCp_E s
  | .cp_H => Sys2Proof.Machine.execCp_H s
  | .cp_L => Sys2Proof.Machine.execCp_L s
  | .cp_atHL => Sys2Proof.Machine.execCp_atHL s
  | .cp_A => Sys2Proof.Machine.execCp_A s
  | .retNZ => Sys2Proof.Machine.execRetNZ s
  | .popBC => Sys2Proof.Machine.execPopBC s
  | .jpNZ a => Sys2Proof.Machine.execJpNZ a s
  | .jp a => Sys2Proof.Machine.execJp a s
  | .callNZ a => Sys2Proof.Machine.execCallNZ a s
  | .pushBC => Sys2Proof.Machine.execPushBC s
  | .add_n8 n => Sys2Proof.Machine.execAdd_n8 n s
  | .rst00 => Sys2Proof.Machine.execRst00 s
  | .retZ => Sys2Proof.Machine.execRetZ s
  | .ret => Sys2Proof.Machine.execRet s
  | .jpZ a => Sys2Proof.Machine.execJpZ a s
  | .prefixCb => Sys2Proof.Machine.execPrefixCb s
  | .callZ a => Sys2Proof.Machine.execCallZ a s
  | .call a => Sys2Proof.Machine.execCall a s
  | .adc_n8 n => Sys2Proof.Machine.execAdc_n8 n s
  | .rst08 => Sys2Proof.Machine.execRst08 s
  | .retNC => Sys2Proof.Machine.execRetNC s
  | .popDE => Sys2Proof.Machine.execPopDE s
  | .jpNC a => Sys2Proof.Machine.execJpNC a s
  | .illegalD3 => Sys2Proof.Machine.execIllegalD3 s
  | .callNC a => Sys2Proof.Machine.execCallNC a s
  | .pushDE => Sys2Proof.Machine.execPushDE s
  | .sub_n8 n => Sys2Proof.Machine.execSub_n8 n s
  | .rst10 => Sys2Proof.Machine.execRst10 s
  | .retC => Sys2Proof.Machine.execRetC s
  | .reti => Sys2Proof.Machine.execReti s
  | .jpC a => Sys2Proof.Machine.execJpC a s
  | .illegalDB => Sys2Proof.Machine.execIllegalDB s
  | .callC a => Sys2Proof.Machine.execCallC a s
  | .illegalDD => Sys2Proof.Machine.execIllegalDD s
  | .sbc_n8 n => Sys2Proof.Machine.execSbc_n8 n s
  | .rst18 => Sys2Proof.Machine.execRst18 s
  | .ldhA8_A n => Sys2Proof.Machine.execLdhA8_A n s
  | .popHL => Sys2Proof.Machine.execPopHL s
  | .ldhAtC_A => Sys2Proof.Machine.execLdhAtC_A s
  | .illegalE3 => Sys2Proof.Machine.execIllegalE3 s
  | .illegalE4 => Sys2Proof.Machine.execIllegalE4 s
  | .pushHL => Sys2Proof.Machine.execPushHL s
  | .and_n8 n => Sys2Proof.Machine.execAnd_n8 n s
  | .rst20 => Sys2Proof.Machine.execRst20 s
  | .addSP_e8 e => Sys2Proof.Machine.execAddSP_e8 e s
  | .jpHL => Sys2Proof.Machine.execJpHL s
  | .ldA16_A a => Sys2Proof.Machine.execLdA16_A a s
  | .illegalEB => Sys2Proof.Machine.execIllegalEB s
  | .illegalEC => Sys2Proof.Machine.execIllegalEC s
  | .illegalED => Sys2Proof.Machine.execIllegalED s
  | .xor_n8 n => Sys2Proof.Machine.execXor_n8 n s
  | .rst28 => Sys2Proof.Machine.execRst28 s
  | .ldhA_a8 n => Sys2Proof.Machine.execLdhA_a8 n s
  | .popAF => Sys2Proof.Machine.execPopAF s
  | .ldhA_atC => Sys2Proof.Machine.execLdhA_atC s
  | .di => Sys2Proof.Machine.execDi s
  | .illegalF4 => Sys2Proof.Machine.execIllegalF4 s
  | .pushAF => Sys2Proof.Machine.execPushAF s
  | .or_n8 n => Sys2Proof.Machine.execOr_n8 n s
  | .rst30 => Sys2Proof.Machine.execRst30 s
  | .ldHL_SPe8 e => Sys2Proof.Machine.execLdHL_SPe8 e s
  | .ldSP_HL => Sys2Proof.Machine.execLdSP_HL s
  | .ldA_a16 a => Sys2Proof.Machine.execLdA_a16 a s
  | .ei => Sys2Proof.Machine.execEi s
  | .illegalFC => Sys2Proof.Machine.execIllegalFC s
  | .illegalFD => Sys2Proof.Machine.execIllegalFD s
  | .cp_n8 n => Sys2Proof.Machine.execCp_n8 n s
  | .rst38 => Sys2Proof.Machine.execRst38 s
  | .rlc_B => Sys2Proof.Machine.execRlc_B s
  | .rlc_C => Sys2Proof.Machine.execRlc_C s
  | .rlc_D => Sys2Proof.Machine.execRlc_D s
  | .rlc_E => Sys2Proof.Machine.execRlc_E s
  | .rlc_H => Sys2Proof.Machine.execRlc_H s
  | .rlc_L => Sys2Proof.Machine.execRlc_L s
  | .rlc_atHL => Sys2Proof.Machine.execRlc_atHL s
  | .rlc_A => Sys2Proof.Machine.execRlc_A s
  | .rrc_B => Sys2Proof.Machine.execRrc_B s
  | .rrc_C => Sys2Proof.Machine.execRrc_C s
  | .rrc_D => Sys2Proof.Machine.execRrc_D s
  | .rrc_E => Sys2Proof.Machine.execRrc_E s
  | .rrc_H => Sys2Proof.Machine.execRrc_H s
  | .rrc_L => Sys2Proof.Machine.execRrc_L s
  | .rrc_atHL => Sys2Proof.Machine.execRrc_atHL s
  | .rrc_A => Sys2Proof.Machine.execRrc_A s
  | .rl_B => Sys2Proof.Machine.execRl_B s
  | .rl_C => Sys2Proof.Machine.execRl_C s
  | .rl_D => Sys2Proof.Machine.execRl_D s
  | .rl_E => Sys2Proof.Machine.execRl_E s
  | .rl_H => Sys2Proof.Machine.execRl_H s
  | .rl_L => Sys2Proof.Machine.execRl_L s
  | .rl_atHL => Sys2Proof.Machine.execRl_atHL s
  | .rl_A => Sys2Proof.Machine.execRl_A s
  | .rr_B => Sys2Proof.Machine.execRr_B s
  | .rr_C => Sys2Proof.Machine.execRr_C s
  | .rr_D => Sys2Proof.Machine.execRr_D s
  | .rr_E => Sys2Proof.Machine.execRr_E s
  | .rr_H => Sys2Proof.Machine.execRr_H s
  | .rr_L => Sys2Proof.Machine.execRr_L s
  | .rr_atHL => Sys2Proof.Machine.execRr_atHL s
  | .rr_A => Sys2Proof.Machine.execRr_A s
  | .sla_B => Sys2Proof.Machine.execSla_B s
  | .sla_C => Sys2Proof.Machine.execSla_C s
  | .sla_D => Sys2Proof.Machine.execSla_D s
  | .sla_E => Sys2Proof.Machine.execSla_E s
  | .sla_H => Sys2Proof.Machine.execSla_H s
  | .sla_L => Sys2Proof.Machine.execSla_L s
  | .sla_atHL => Sys2Proof.Machine.execSla_atHL s
  | .sla_A => Sys2Proof.Machine.execSla_A s
  | .sra_B => Sys2Proof.Machine.execSra_B s
  | .sra_C => Sys2Proof.Machine.execSra_C s
  | .sra_D => Sys2Proof.Machine.execSra_D s
  | .sra_E => Sys2Proof.Machine.execSra_E s
  | .sra_H => Sys2Proof.Machine.execSra_H s
  | .sra_L => Sys2Proof.Machine.execSra_L s
  | .sra_atHL => Sys2Proof.Machine.execSra_atHL s
  | .sra_A => Sys2Proof.Machine.execSra_A s
  | .swap_B => Sys2Proof.Machine.execSwap_B s
  | .swap_C => Sys2Proof.Machine.execSwap_C s
  | .swap_D => Sys2Proof.Machine.execSwap_D s
  | .swap_E => Sys2Proof.Machine.execSwap_E s
  | .swap_H => Sys2Proof.Machine.execSwap_H s
  | .swap_L => Sys2Proof.Machine.execSwap_L s
  | .swap_atHL => Sys2Proof.Machine.execSwap_atHL s
  | .swap_A => Sys2Proof.Machine.execSwap_A s
  | .srl_B => Sys2Proof.Machine.execSrl_B s
  | .srl_C => Sys2Proof.Machine.execSrl_C s
  | .srl_D => Sys2Proof.Machine.execSrl_D s
  | .srl_E => Sys2Proof.Machine.execSrl_E s
  | .srl_H => Sys2Proof.Machine.execSrl_H s
  | .srl_L => Sys2Proof.Machine.execSrl_L s
  | .srl_atHL => Sys2Proof.Machine.execSrl_atHL s
  | .srl_A => Sys2Proof.Machine.execSrl_A s
  | .bit0_B => Sys2Proof.Machine.execBit0_B s
  | .bit0_C => Sys2Proof.Machine.execBit0_C s
  | .bit0_D => Sys2Proof.Machine.execBit0_D s
  | .bit0_E => Sys2Proof.Machine.execBit0_E s
  | .bit0_H => Sys2Proof.Machine.execBit0_H s
  | .bit0_L => Sys2Proof.Machine.execBit0_L s
  | .bit0_atHL => Sys2Proof.Machine.execBit0_atHL s
  | .bit0_A => Sys2Proof.Machine.execBit0_A s
  | .bit1_B => Sys2Proof.Machine.execBit1_B s
  | .bit1_C => Sys2Proof.Machine.execBit1_C s
  | .bit1_D => Sys2Proof.Machine.execBit1_D s
  | .bit1_E => Sys2Proof.Machine.execBit1_E s
  | .bit1_H => Sys2Proof.Machine.execBit1_H s
  | .bit1_L => Sys2Proof.Machine.execBit1_L s
  | .bit1_atHL => Sys2Proof.Machine.execBit1_atHL s
  | .bit1_A => Sys2Proof.Machine.execBit1_A s
  | .bit2_B => Sys2Proof.Machine.execBit2_B s
  | .bit2_C => Sys2Proof.Machine.execBit2_C s
  | .bit2_D => Sys2Proof.Machine.execBit2_D s
  | .bit2_E => Sys2Proof.Machine.execBit2_E s
  | .bit2_H => Sys2Proof.Machine.execBit2_H s
  | .bit2_L => Sys2Proof.Machine.execBit2_L s
  | .bit2_atHL => Sys2Proof.Machine.execBit2_atHL s
  | .bit2_A => Sys2Proof.Machine.execBit2_A s
  | .bit3_B => Sys2Proof.Machine.execBit3_B s
  | .bit3_C => Sys2Proof.Machine.execBit3_C s
  | .bit3_D => Sys2Proof.Machine.execBit3_D s
  | .bit3_E => Sys2Proof.Machine.execBit3_E s
  | .bit3_H => Sys2Proof.Machine.execBit3_H s
  | .bit3_L => Sys2Proof.Machine.execBit3_L s
  | .bit3_atHL => Sys2Proof.Machine.execBit3_atHL s
  | .bit3_A => Sys2Proof.Machine.execBit3_A s
  | .bit4_B => Sys2Proof.Machine.execBit4_B s
  | .bit4_C => Sys2Proof.Machine.execBit4_C s
  | .bit4_D => Sys2Proof.Machine.execBit4_D s
  | .bit4_E => Sys2Proof.Machine.execBit4_E s
  | .bit4_H => Sys2Proof.Machine.execBit4_H s
  | .bit4_L => Sys2Proof.Machine.execBit4_L s
  | .bit4_atHL => Sys2Proof.Machine.execBit4_atHL s
  | .bit4_A => Sys2Proof.Machine.execBit4_A s
  | .bit5_B => Sys2Proof.Machine.execBit5_B s
  | .bit5_C => Sys2Proof.Machine.execBit5_C s
  | .bit5_D => Sys2Proof.Machine.execBit5_D s
  | .bit5_E => Sys2Proof.Machine.execBit5_E s
  | .bit5_H => Sys2Proof.Machine.execBit5_H s
  | .bit5_L => Sys2Proof.Machine.execBit5_L s
  | .bit5_atHL => Sys2Proof.Machine.execBit5_atHL s
  | .bit5_A => Sys2Proof.Machine.execBit5_A s
  | .bit6_B => Sys2Proof.Machine.execBit6_B s
  | .bit6_C => Sys2Proof.Machine.execBit6_C s
  | .bit6_D => Sys2Proof.Machine.execBit6_D s
  | .bit6_E => Sys2Proof.Machine.execBit6_E s
  | .bit6_H => Sys2Proof.Machine.execBit6_H s
  | .bit6_L => Sys2Proof.Machine.execBit6_L s
  | .bit6_atHL => Sys2Proof.Machine.execBit6_atHL s
  | .bit6_A => Sys2Proof.Machine.execBit6_A s
  | .bit7_B => Sys2Proof.Machine.execBit7_B s
  | .bit7_C => Sys2Proof.Machine.execBit7_C s
  | .bit7_D => Sys2Proof.Machine.execBit7_D s
  | .bit7_E => Sys2Proof.Machine.execBit7_E s
  | .bit7_H => Sys2Proof.Machine.execBit7_H s
  | .bit7_L => Sys2Proof.Machine.execBit7_L s
  | .bit7_atHL => Sys2Proof.Machine.execBit7_atHL s
  | .bit7_A => Sys2Proof.Machine.execBit7_A s
  | .res0_B => Sys2Proof.Machine.execRes0_B s
  | .res0_C => Sys2Proof.Machine.execRes0_C s
  | .res0_D => Sys2Proof.Machine.execRes0_D s
  | .res0_E => Sys2Proof.Machine.execRes0_E s
  | .res0_H => Sys2Proof.Machine.execRes0_H s
  | .res0_L => Sys2Proof.Machine.execRes0_L s
  | .res0_atHL => Sys2Proof.Machine.execRes0_atHL s
  | .res0_A => Sys2Proof.Machine.execRes0_A s
  | .res1_B => Sys2Proof.Machine.execRes1_B s
  | .res1_C => Sys2Proof.Machine.execRes1_C s
  | .res1_D => Sys2Proof.Machine.execRes1_D s
  | .res1_E => Sys2Proof.Machine.execRes1_E s
  | .res1_H => Sys2Proof.Machine.execRes1_H s
  | .res1_L => Sys2Proof.Machine.execRes1_L s
  | .res1_atHL => Sys2Proof.Machine.execRes1_atHL s
  | .res1_A => Sys2Proof.Machine.execRes1_A s
  | .res2_B => Sys2Proof.Machine.execRes2_B s
  | .res2_C => Sys2Proof.Machine.execRes2_C s
  | .res2_D => Sys2Proof.Machine.execRes2_D s
  | .res2_E => Sys2Proof.Machine.execRes2_E s
  | .res2_H => Sys2Proof.Machine.execRes2_H s
  | .res2_L => Sys2Proof.Machine.execRes2_L s
  | .res2_atHL => Sys2Proof.Machine.execRes2_atHL s
  | .res2_A => Sys2Proof.Machine.execRes2_A s
  | .res3_B => Sys2Proof.Machine.execRes3_B s
  | .res3_C => Sys2Proof.Machine.execRes3_C s
  | .res3_D => Sys2Proof.Machine.execRes3_D s
  | .res3_E => Sys2Proof.Machine.execRes3_E s
  | .res3_H => Sys2Proof.Machine.execRes3_H s
  | .res3_L => Sys2Proof.Machine.execRes3_L s
  | .res3_atHL => Sys2Proof.Machine.execRes3_atHL s
  | .res3_A => Sys2Proof.Machine.execRes3_A s
  | .res4_B => Sys2Proof.Machine.execRes4_B s
  | .res4_C => Sys2Proof.Machine.execRes4_C s
  | .res4_D => Sys2Proof.Machine.execRes4_D s
  | .res4_E => Sys2Proof.Machine.execRes4_E s
  | .res4_H => Sys2Proof.Machine.execRes4_H s
  | .res4_L => Sys2Proof.Machine.execRes4_L s
  | .res4_atHL => Sys2Proof.Machine.execRes4_atHL s
  | .res4_A => Sys2Proof.Machine.execRes4_A s
  | .res5_B => Sys2Proof.Machine.execRes5_B s
  | .res5_C => Sys2Proof.Machine.execRes5_C s
  | .res5_D => Sys2Proof.Machine.execRes5_D s
  | .res5_E => Sys2Proof.Machine.execRes5_E s
  | .res5_H => Sys2Proof.Machine.execRes5_H s
  | .res5_L => Sys2Proof.Machine.execRes5_L s
  | .res5_atHL => Sys2Proof.Machine.execRes5_atHL s
  | .res5_A => Sys2Proof.Machine.execRes5_A s
  | .res6_B => Sys2Proof.Machine.execRes6_B s
  | .res6_C => Sys2Proof.Machine.execRes6_C s
  | .res6_D => Sys2Proof.Machine.execRes6_D s
  | .res6_E => Sys2Proof.Machine.execRes6_E s
  | .res6_H => Sys2Proof.Machine.execRes6_H s
  | .res6_L => Sys2Proof.Machine.execRes6_L s
  | .res6_atHL => Sys2Proof.Machine.execRes6_atHL s
  | .res6_A => Sys2Proof.Machine.execRes6_A s
  | .res7_B => Sys2Proof.Machine.execRes7_B s
  | .res7_C => Sys2Proof.Machine.execRes7_C s
  | .res7_D => Sys2Proof.Machine.execRes7_D s
  | .res7_E => Sys2Proof.Machine.execRes7_E s
  | .res7_H => Sys2Proof.Machine.execRes7_H s
  | .res7_L => Sys2Proof.Machine.execRes7_L s
  | .res7_atHL => Sys2Proof.Machine.execRes7_atHL s
  | .res7_A => Sys2Proof.Machine.execRes7_A s
  | .set0_B => Sys2Proof.Machine.execSet0_B s
  | .set0_C => Sys2Proof.Machine.execSet0_C s
  | .set0_D => Sys2Proof.Machine.execSet0_D s
  | .set0_E => Sys2Proof.Machine.execSet0_E s
  | .set0_H => Sys2Proof.Machine.execSet0_H s
  | .set0_L => Sys2Proof.Machine.execSet0_L s
  | .set0_atHL => Sys2Proof.Machine.execSet0_atHL s
  | .set0_A => Sys2Proof.Machine.execSet0_A s
  | .set1_B => Sys2Proof.Machine.execSet1_B s
  | .set1_C => Sys2Proof.Machine.execSet1_C s
  | .set1_D => Sys2Proof.Machine.execSet1_D s
  | .set1_E => Sys2Proof.Machine.execSet1_E s
  | .set1_H => Sys2Proof.Machine.execSet1_H s
  | .set1_L => Sys2Proof.Machine.execSet1_L s
  | .set1_atHL => Sys2Proof.Machine.execSet1_atHL s
  | .set1_A => Sys2Proof.Machine.execSet1_A s
  | .set2_B => Sys2Proof.Machine.execSet2_B s
  | .set2_C => Sys2Proof.Machine.execSet2_C s
  | .set2_D => Sys2Proof.Machine.execSet2_D s
  | .set2_E => Sys2Proof.Machine.execSet2_E s
  | .set2_H => Sys2Proof.Machine.execSet2_H s
  | .set2_L => Sys2Proof.Machine.execSet2_L s
  | .set2_atHL => Sys2Proof.Machine.execSet2_atHL s
  | .set2_A => Sys2Proof.Machine.execSet2_A s
  | .set3_B => Sys2Proof.Machine.execSet3_B s
  | .set3_C => Sys2Proof.Machine.execSet3_C s
  | .set3_D => Sys2Proof.Machine.execSet3_D s
  | .set3_E => Sys2Proof.Machine.execSet3_E s
  | .set3_H => Sys2Proof.Machine.execSet3_H s
  | .set3_L => Sys2Proof.Machine.execSet3_L s
  | .set3_atHL => Sys2Proof.Machine.execSet3_atHL s
  | .set3_A => Sys2Proof.Machine.execSet3_A s
  | .set4_B => Sys2Proof.Machine.execSet4_B s
  | .set4_C => Sys2Proof.Machine.execSet4_C s
  | .set4_D => Sys2Proof.Machine.execSet4_D s
  | .set4_E => Sys2Proof.Machine.execSet4_E s
  | .set4_H => Sys2Proof.Machine.execSet4_H s
  | .set4_L => Sys2Proof.Machine.execSet4_L s
  | .set4_atHL => Sys2Proof.Machine.execSet4_atHL s
  | .set4_A => Sys2Proof.Machine.execSet4_A s
  | .set5_B => Sys2Proof.Machine.execSet5_B s
  | .set5_C => Sys2Proof.Machine.execSet5_C s
  | .set5_D => Sys2Proof.Machine.execSet5_D s
  | .set5_E => Sys2Proof.Machine.execSet5_E s
  | .set5_H => Sys2Proof.Machine.execSet5_H s
  | .set5_L => Sys2Proof.Machine.execSet5_L s
  | .set5_atHL => Sys2Proof.Machine.execSet5_atHL s
  | .set5_A => Sys2Proof.Machine.execSet5_A s
  | .set6_B => Sys2Proof.Machine.execSet6_B s
  | .set6_C => Sys2Proof.Machine.execSet6_C s
  | .set6_D => Sys2Proof.Machine.execSet6_D s
  | .set6_E => Sys2Proof.Machine.execSet6_E s
  | .set6_H => Sys2Proof.Machine.execSet6_H s
  | .set6_L => Sys2Proof.Machine.execSet6_L s
  | .set6_atHL => Sys2Proof.Machine.execSet6_atHL s
  | .set6_A => Sys2Proof.Machine.execSet6_A s
  | .set7_B => Sys2Proof.Machine.execSet7_B s
  | .set7_C => Sys2Proof.Machine.execSet7_C s
  | .set7_D => Sys2Proof.Machine.execSet7_D s
  | .set7_E => Sys2Proof.Machine.execSet7_E s
  | .set7_H => Sys2Proof.Machine.execSet7_H s
  | .set7_L => Sys2Proof.Machine.execSet7_L s
  | .set7_atHL => Sys2Proof.Machine.execSet7_atHL s
  | .set7_A => Sys2Proof.Machine.execSet7_A s

end Sys2Proof.Machine
end

