-- ==== Sys2Proof/Machine/Ppu.lean ====
section
/-! DEFINITION. The PPU scanline engine (spec/60_exceptions.md section 6), one tick at a time. It works on
the whole state: its registers and IF are scalars of the bus, which it reads and writes directly
(spec/20_memory.md R107). -/

namespace Sys2Proof.Machine

/-! ### The tile fetcher -/

/-- A byte of VRAM. VRAM is always mapped, so the bus read of R107 and R434 is the read of the byte
behind the mapping, and cannot fault (log 13). -/
def State.vram (s : State) (a : Word) : Byte := s.mem.read a.toNat

/-- Where the tile number of the current column is (R424). -/
def State.tileMapAddr (s : State) : Word :=
  (if s.io.lcdc.getLsbD 3 then 0x9C00 else 0x9800) +
    .ofNat 16 (32 * (s.io.ly.toNat / 8) + s.ppu.fetchIdx.toNat % 32)

/-- Where the two bytes of the tile's row are: an unsigned or a signed index (R425). -/
def State.tileRowAddr (s : State) : Word :=
  (if s.io.lcdc.getLsbD 4 then 0x8000 + 16 * zext16 s.ppu.tileNo
    else 0x9000 + 16 * sext16 s.ppu.tileNo) + .ofNat 16 (2 * (s.io.ly.toNat % 8))

/-- Pixel `k` of a tile row, `k = 0` leftmost (R426). -/
def tilePixel (hi lo : Byte) (k : Nat) : Shade :=
  BitVec.ofBool (hi.getLsbD (7 - k)) ++ BitVec.ofBool (lo.getLsbD (7 - k))

/-- The eight pixels of a tile row, leftmost first (R426, R427). -/
def tileRow (hi lo : Byte) : List Shade := (List.range 8).map (tilePixel hi lo)

/-- One step of the fetcher (R424 to R427). -/
def State.fetcherStep (s : State) : State :=
  match s.ppu.fstate with
  | .tileNumber =>
    { s with ppu := { s.ppu with tileNo := s.vram s.tileMapAddr, fstate := .tileDataLow } }
  | .tileDataLow =>
    { s with ppu := { s.ppu with dataLo := s.vram s.tileRowAddr, fstate := .tileDataHigh } }
  | .tileDataHigh =>
    { s with ppu := { s.ppu with dataHi := s.vram (s.tileRowAddr + 1), fstate := .pushToFifo } }
  | .pushToFifo =>
    if s.ppu.fifo.length ≤ 8 then
      { s with ppu := { s.ppu with
          fifo := s.ppu.fifo ++ tileRow s.ppu.dataHi s.ppu.dataLo,
          fetchIdx := s.ppu.fetchIdx + 1, fstate := .tileNumber } }
    else s

/-! ### Pixels -/

/-- The shade of a colour index: slot `i` of BGP is its bits 2i+1..2i (R51). -/
def bgShade (bgp : Byte) (i : Shade) : Shade := bgp.extractLsb' (2 * i.toNat) 2

/-- `OutputPixel()` (R428), and the end of PixelTransfer at column 160 (R429). It is asked only of a
FIFO of more than 8 pixels. -/
def State.outputPixel (s : State) : State :=
  match s.ppu.fifo with
  | [] => s
  | i :: rest =>
    { s with ppu := { s.ppu with
        fifo := rest,
        front := s.ppu.front.write s.io.ly.toNat s.ppu.x (bgShade s.io.bgp i),
        x := s.ppu.x + 1,
        mode := if s.ppu.x + 1 = Config.lineWidth then .hblank else s.ppu.mode } }

/-! ### The four modes -/

/-- `OamSearchTick()` (R422). -/
def State.oamSearchTick (s : State) : State :=
  if s.ppu.lineTick = Config.oamSearchTicks then
    { s with ppu := { s.ppu with
        fstate := .tileNumber, fetchIdx := 0, fetchPhase := false, x := 0, fifo := [],
        mode := .pixelTransfer } }
  else s

/-- `fetch_phase <- 1 - fetch_phase` (R423). -/
def State.flipPhase (s : State) : State :=
  { s with ppu := { s.ppu with fetchPhase := !s.ppu.fetchPhase } }

/-- `PixelTransferTick()`: the fetcher on every other tick, before the pop (R423). -/
def State.pixelTransferTick (s : State) : State :=
  let t := (if s.ppu.fetchPhase then s.fetcherStep else s).flipPhase
  if t.ppu.fifo.length > 8 then t.outputPixel else t

/-- `VBlankEntry()` (R431): the swap, the flag, the request. -/
def State.vblankEntry (s : State) : State :=
  { s with ppu := { s.ppu with
      back := s.ppu.front, front := [], frameReady := true, mode := .vblank } }.request .vblank

/-- `HBlankTick()` (R430). -/
def State.hblankTick (s : State) : State :=
  if s.ppu.lineTick = Config.ticksPerLine then
    let t := { s with io := { s.io with ly := s.io.ly + 1 }, ppu := { s.ppu with lineTick := 0 } }
    if t.io.ly = Config.vblankLine then t.vblankEntry
    else { t with ppu := { t.ppu with mode := .oamSearch } }
  else s

/-- `VBlankTick()` (R432). -/
def State.vblankTick (s : State) : State :=
  if s.ppu.lineTick = Config.ticksPerLine then
    if s.io.ly = Config.lastLine then
      { s with io := { s.io with ly := 0 }, ppu := { s.ppu with lineTick := 0, mode := .oamSearch } }
    else { s with io := { s.io with ly := s.io.ly + 1 }, ppu := { s.ppu with lineTick := 0 } }
  else s

/-! ### STAT -/

/-- The code of a mode in STAT bits 1..0 (R46, R441). -/
def Mode.code : Mode → BitVec 2
  | .hblank => 0 | .vblank => 1 | .oamSearch => 2 | .pixelTransfer => 3

/-- STAT with its status bits written: bits 1..0 the mode, bit 2 LY == LYC, bits 7..3 kept (R441). -/
def statByte (stat : Byte) (mode : Mode) (ly lyc : Byte) : Byte :=
  stat.extractLsb' 3 5 ++ BitVec.ofBool (decide (ly = lyc)) ++ mode.code

/-- The condition of the STAT interrupt, from STAT after its status bits are written (R442). -/
def statCond (stat : Byte) (mode : Mode) : Bool :=
  (stat.getLsbD 6 && stat.getLsbD 2) || (stat.getLsbD 3 && decide (mode = .hblank)) ||
    (stat.getLsbD 4 && decide (mode = .vblank)) || (stat.getLsbD 5 && decide (mode = .oamSearch))

/-- `StatUpdate()`: the status bits, then the request on a rising edge of the condition (R441, R442). -/
def State.statUpdate (s : State) : State :=
  let stat := statByte s.io.stat s.ppu.mode s.io.ly s.io.lyc
  let cond := statCond stat s.ppu.mode
  let t := { s with io := { s.io with stat := stat } }
  let u := if cond && !s.ppu.statLine then t.request .lcdStat else t
  { u with ppu := { u.ppu with statLine := cond } }

/-! ### The tick -/

/-- `LcdDisable()` (R421). -/
def State.lcdDisable (s : State) : State :=
  { s with
    io := { s.io with ly := 0, stat := s.io.stat &&& 0xF8 },
    ppu := { s.ppu with
      lcdOn := false, x := 0, lineTick := 0, mode := .hblank, fifo := [], fstate := .tileNumber,
      fetchIdx := 0, fetchPhase := false, statLine := false } }

/-- `LcdEnable()` (R421). -/
def State.lcdEnable (s : State) : State :=
  { s with
    io := { s.io with ly := 0 },
    ppu := { s.ppu with lcdOn := true, mode := .oamSearch, lineTick := 0 } }

/-- The work of one tick in the current mode (R420). -/
def State.modeTick (s : State) : State :=
  match s.ppu.mode with
  | .oamSearch => s.oamSearchTick
  | .pixelTransfer => s.pixelTransferTick
  | .hblank => s.hblankTick
  | .vblank => s.vblankTick

/-- `line_tick <- line_tick + 1` (R420). -/
def State.countTick (s : State) : State :=
  { s with ppu := { s.ppu with lineTick := s.ppu.lineTick + 1 } }

/-- `Tick()` (R420). -/
def State.tick (s : State) : State :=
  if s.io.lcdc.getLsbD 7 then
    (if s.ppu.lcdOn then s else s.lcdEnable).countTick.modeTick.statUpdate
  else if s.ppu.lcdOn then s.lcdDisable
  else s

/-- `n` ticks (R470). -/
def State.ticks (s : State) : Nat → State
  | 0 => s
  | n + 1 => s.tick.ticks n

end Sys2Proof.Machine
end

