-- ==== Sys2Proof/Machine/Cpu.lean ====
section
/-! DEFINITION. The CPU step and the system step (spec/60_exceptions.md section 3,
spec/70_reset_and_hazards.md section 2). -/

namespace Sys2Proof.Machine

/-- The end of a step that executed an instruction: the EI countdown, then the cycle total (R380, R385). -/
def State.endStep (s : State) : State :=
  let t := s.endOfStepEi
  { t with cyclesTotal := t.cyclesTotal + t.stepCycles }

/-- The end of a step, where the instruction completed; a fault or a refusal counts nothing (R361,
R362, R364). -/
def endResult : Result → Result
  | .next t => .next t.endStep
  | .fault f => .fault f
  | .refused r => .refused r

/-- Fetch, decode, execute, end (R380). -/
def State.runInstr (s : State) : Result := s.fetchInstr fun i t => endResult (exec i t)

/-- A halted step with nothing to wake it: one cycle, no fetch (R382). -/
def State.idle (s : State) : State := { s with cyclesTotal := s.cyclesTotal + 1, stepCycles := 1 }

/-- The start of a step that does not idle: a halted CPU wakes (R382); the PC is noted for the fault
record (R360) and the count of the step starts at 0 (log 7). -/
def State.beginStep (s : State) : State := { s with halted := false, pc0 := s.pc, stepCycles := 0 }

/-- `CpuStep()` (R380). `pend` is read once, at the top (R476). -/
def State.cpuStep (s : State) : Result :=
  match s.fault, s.refused with
  | some e, _ => .fault (.fatal e s)
  | none, some .stop => .refused (.stop s)
  | none, none =>
    if s.halted ∧ s.pend = 0 then .next s.idle
    else if s.ime ∧ s.pend ≠ 0 then s.beginStep.dispatch s.pend State.runInstr
    else s.beginStep.runInstr

/-- The PPU ticks a CPU step paid for; a fault or a refusal pays for none (R361, R364, R470). -/
def payTicks : Result → Result
  | .next t => .next (t.ticks (Config.ticksPerCycle * t.stepCycles))
  | .fault f => .fault f
  | .refused r => .refused r

/-- `SystemStep()` (R470). -/
def State.systemStep (s : State) : Result := payTicks s.cpuStep

/-! ### Placing an instruction -/

/-- Where the next step fetches its opcode: PC, or the vector where it will dispatch (R380, R381). -/
def State.fetchAddr (s : State) : Word :=
  if s.ime ∧ s.pend ≠ 0 then (firstSource s.pend).vector else s.pc

/-- A byte put behind the mapping of an address, read-only or not: the load of an image, not a bus
write. -/
def State.poke (s : State) (a : Word) (v : Byte) : State :=
  match s.map.lookup a.toNat with
  | none => s
  | some m => s.writeStore m.store a.toNat v

/-- Bytes put at rising addresses. -/
def State.pokeAll (s : State) (a : Word) : List Byte → State
  | [] => s
  | v :: rest => (s.poke a v).pokeAll (a + 1) rest

/-- The state whose next step fetches (log 5): not halted, with no fault and no refusal. -/
def State.ready (s : State) : State := { s with halted := false, fault := none, refused := none }

end Sys2Proof.Machine
end

