-- ==== Sys2Proof/Machine/Step.lean ====
section
/-! DEFINITION. One step of the machine, and the state whose next step runs a given instruction. -/

namespace Sys2Proof.Machine

/-- One step: the host's `step()`, one SystemStep (R455, R470). -/
def step (s : State) : Host.Outcome State Fault Refusal := s.systemStep

/-- `s` with the bytes of a number of spec/opcode_table.json placed where the next step fetches (log 5). -/
def State.withFetchWord (s : State) (nbits w : Nat) : State :=
  s.ready.pokeAll s.fetchAddr (tableBytes nbits w)

end Sys2Proof.Machine
end

