-- ==== Sys2Proof/Machine/Reset.lean ====
section
/-! DEFINITION. `reset` with its parameters (spec/00_scope.md R9, spec/70_reset_and_hazards.md section 1):
the cartridge image, the boot ROM, the size of cartridge RAM, the initial contents of RAM, the initial
registers of a boot, and the platform's extra mappings. `State.reset` is one instance of it (log 2). -/

namespace Sys2Proof.Machine

/-- `REG_INIT` (R9): the registers a reset with a boot ROM starts from. F keeps its bits 7..4 only. -/
structure RegInit where
  regs : Regs
  f : Byte
  sp : Word
deriving DecidableEq, Repr

/-- One of `EXTRA_MAPPINGS` (R9, R106): an array of the platform, or its scalar where there is one byte.
The initial contents come with it, as the store of `add_mapping` does (R82). DESIGN CHOICE, safe
(log 24): the spec gives them no value, so they are the platform's to give. -/
structure ExtraMapping where
  base : Nat
  readOnly : Bool
  bytes : List Byte
deriving DecidableEq, Repr

/-- What is added to the set of mappings. -/
def ExtraMapping.mapping (e : ExtraMapping) : Mapping := ⟨e.base, e.bytes.length, e.readOnly, .platform⟩

/-- The parameters of `reset` (R9). -/
structure ResetParams where
  rom : List Byte
  bootRom : Option (List Byte)
  /-- 0, 2048 or 8192 (R9, R103). -/
  cartRamSize : Nat
  /-- `RAM_INIT`: the bytes of RAM that do not start as `Config.unlistedByte` (log 3). -/
  ramInit : Memory
  regInit : RegInit
  /-- `EXTRA_MAPPINGS`, in the order they are added (R106). -/
  extra : List ExtraMapping
deriving DecidableEq, Repr

/-- What `reset` reports without failing (R102, R363). -/
inductive ResetWarning where
  | malformedBootRom (len : Nat)
deriving DecidableEq, Repr

/-- The boot ROM `reset` uses, and the warning for one that is not 256 bytes long (R102). -/
def usableBootRom : Option (List Byte) → Option (List Byte) × Option ResetWarning
  | none => (none, none)
  | some b =>
    if b.length = Config.bootRomSize then (some b, none)
    else (none, some (.malformedBootRom b.length))

/-- The bytes of an image, from an address on. -/
def Memory.image (a : Nat) : List Byte → Memory
  | [] => []
  | v :: rest =>
    if v = Config.unlistedByte then Memory.image (a + 1) rest else (a, v) :: Memory.image (a + 1) rest

/-- An address whose initial byte is drawn from `RAM_INIT` (R9): an array of the base map that is neither
cartridge ROM, nor the zeros of R105, nor the sound registers. -/
def drawn (ms : BusMap) (a : Nat) : Bool :=
  decide (0x8000 ≤ a) && !(decide (0xFEA0 ≤ a) && decide (a ≤ 0xFEFF)) &&
    !(decide (0xFF10 ≤ a) && decide (a ≤ 0xFF26)) &&
    (match ms.lookup a with | some m => decide (m.store = .memory) | none => false)

/-- RAM filled from `RAM_INIT` (R460). -/
def fillRam (ms : BusMap) (m : Memory) : List Host.Cell → Memory
  | [] => m
  | (a, v) :: rest => fillRam ms (if drawn ms a then m.write a v else m) rest

/-- The extra mappings, each added by R82 or R83 (R106). -/
def addExtra (ms : BusMap) : List ExtraMapping → Except FatalError BusMap
  | [] => .ok ms
  | e :: rest =>
    match ms.add e.mapping with
    | none => .error (.mappingOverlap e.base e.bytes.length)
    | some ms' => addExtra ms' rest

/-- The initial contents of the extra mappings, at their own addresses (R106, log 24). -/
def loadExtra (m : Memory) : List ExtraMapping → Memory
  | [] => m
  | e :: rest => loadExtra (m.load e.base e.bytes) rest

/-- The flags of a reset without a boot ROM: H and C exactly where the header byte is 0 (R463). -/
def headerFlags (hdr : Byte) : Flags :=
  { z := true, n := false, h := decide (hdr = 0), c := decide (hdr = 0) }

/-- The "boot" column of R64: every scalar is 0. -/
def IoRegs.boot0 : IoRegs where
  joyp := 0
  sb := 0
  sc := 0
  tma := 0
  tac := 0
  iflag := 0
  lcdc := 0
  stat := 0
  scy := 0
  scx := 0
  ly := 0
  lyc := 0
  dma := 0
  bgp := 0
  obp0 := 0
  obp1 := 0
  wy := 0
  wx := 0
  boot := 0
  ie := 0

/-- The state both columns of R64 share, over a map and its storage. -/
def State.cleared (ms : BusMap) (mem : Memory) : State :=
  { State.reset with map := ms, mem := mem }

/-- The "post-boot" column of R64. -/
def State.postBoot (ms : BusMap) (mem : Memory) (hdr : Byte) : State :=
  { State.cleared ms mem with flags := headerFlags hdr }

/-- The "boot" column of R64, with the boot ROM's image. -/
def State.atBoot (ms : BusMap) (mem : Memory) (image : List Byte) (r : RegInit) : State :=
  { State.cleared ms mem with
    regs := r.regs, flags := .ofByte r.f, sp := r.sp, pc := 0x0000, pc0 := 0x0000,
    io := .boot0, bootMapped := true, bootRom := .image 0 image, ppu := .init false }

/-- `reset(ROM, BOOT_ROM)` (R460): a fresh machine and a warning, or the error that leaves none. -/
def resetWith (p : ResetParams) : Except FatalError (State × Option ResetWarning) :=
  if p.rom.length < Config.minRomSize then .error (.romTooShort p.rom.length)
  else
    let b := usableBootRom p.bootRom
    match addExtra (baseMap b.1.isSome p.rom.length p.cartRamSize) p.extra with
    | .error e => .error e
    | .ok ms =>
      let mem := loadExtra (fillRam ms (.image 0 (p.rom.take Config.maxRomSize)) p.ramInit) p.extra
      match b.1 with
      | none => .ok (.postBoot ms mem (p.rom.getD 0x014D 0), b.2)
      | some image => .ok (.atBoot ms mem image p.regInit, b.2)

/-- The parameters `State.reset` stands for (log 2, log 3, log 4). -/
def ResetParams.default : ResetParams where
  rom := List.replicate Config.maxRomSize 0
  bootRom := none
  cartRamSize := 0
  ramInit := []
  regInit := ⟨⟨0, 0, 0, 0, 0, 0, 0⟩, 0, 0⟩
  extra := []

end Sys2Proof.Machine
end

