-- ==== Sys2Proof/Machine/HostApi.lean ====
section
/-! DEFINITION. What the host and the collaborators can do between system steps
(spec/60_exceptions.md sections 5 and 8, spec/70_reset_and_hazards.md R472). `step` itself takes no
input: a run with an environment is a list of moves (log 14). -/

namespace Sys2Proof.Machine

/-! ### The host (R455) -/

/-- `halt()`. -/
def State.hostHalt (s : State) : State := { s with halted := true }

/-- `resume()`: IME and IF are unchanged. -/
def State.hostResume (s : State) : State := { s with halted := false }

/-- `is_halted()`. -/
def State.isHalted (s : State) : Bool := s.halted

/-- `program_counter()`. -/
def State.programCounter (s : State) : Word := s.pc

/-- The host sets or clears `stop_requested` (R41, R456). -/
def State.setStopRequested (s : State) (b : Bool) : State := { s with stopRequested := b }

/-- `Drain()` (R457): the back framebuffer, and the flag cleared. -/
def State.drain (s : State) : Frame × State :=
  (s.ppu.back, { s with ppu := { s.ppu with frameReady := false } })

/-- `reset(rom, boot rom)` (R455, R460): every piece of state is replaced; its warning is `resetWith`'s. A
reset that fails leaves no machine. DESIGN CHOICE, safe (log 25): its error carries the state before it,
marked. -/
def State.hostReset (s : State) (p : ResetParams) : Result :=
  match resetWith p with
  | .ok (t, _) => .next t
  | .error e => .fault (s.fatal e)

/-! ### The collaborators (R400) -/

/-- The registers of the collaborators (R104). -/
inductive CollabReg where
  | joyp | sb | sc | tma | tac
deriving DecidableEq, Repr

def CollabReg.toIo : CollabReg → IoReg
  | .joyp => .joyp | .sb => .sb | .sc => .sc | .tma => .tma | .tac => .tac

/-- One move of a collaborator (R400 to R404). -/
inductive CollabMove where
  | requestTimer
  | requestSerial
  | requestJoypad
  /-- Any value in bits 4..2 of IF. DESIGN CHOICE, safe (log 21): R400 has a collaborator only set these
  bits, R341 and R372 have it write IF, and spec/93 gives the bits any value between steps. -/
  | writeRequests (v : BitVec 3)
  /-- IE. DESIGN CHOICE, safe (log 21): R341 has a collaborator write IE, R400 does not name it. -/
  | writeIe (v : Byte)
  | write (r : CollabReg) (v : Byte)
  /-- A sound register, by its offset from 0xFF10. -/
  | writeSound (i : Fin 23) (v : Byte)
  /-- A byte of a mapping the platform added, read-only on the bus or not. DESIGN CHOICE, safe (log 23):
  the spec does not say which of the platform's registers are a collaborator's (R106, R400). -/
  | writeExtra (a : Word) (v : Byte)
deriving DecidableEq, Repr

/-- The effect of a move (R400). Each writes what it names, runs no hook and is no bus access (log 14). -/
def State.collab (s : State) : CollabMove → State
  | .requestTimer => s.request .timer
  | .requestSerial => s.request .serial
  | .requestJoypad => s.request .joypad
  | .writeRequests v => { s with io := { s.io with iflag := s.io.iflag &&& 0xE3 ||| v.setWidth 8 <<< 2 } }
  | .writeIe v => { s with io := { s.io with ie := v } }
  | .write r v => { s with io := s.io.set r.toIo v }
  | .writeSound i v => { s with mem := s.mem.write (0xFF10 + i.val) v }
  | .writeExtra a v =>
    if (s.map.lookup a.toNat).any (·.store = .platform) then { s with mem := s.mem.write a.toNat v } else s

/-! ### Runs -/

/-- What can happen next (R455, R472): a system step, an operation of the host, a move of a collaborator. -/
inductive Move where
  | reset (p : ResetParams)
  | step
  | halt
  | resume
  | setStop (b : Bool)
  | drain
  | collab (m : CollabMove)
deriving DecidableEq, Repr

/-- One move. -/
def State.move (s : State) : Move → Result
  | .reset p => s.hostReset p
  | .step => Machine.step s
  | .halt => .next s.hostHalt
  | .resume => .next s.hostResume
  | .setStop b => .next (s.setStopRequested b)
  | .drain => .next s.drain.2
  | .collab m => .next (s.collab m)

/-- One more move of a run: after a fault or a refusal only a reset goes on (R39, R361, R465, log 25). -/
def afterMove (r : Result) (m : Move) : Result :=
  match r, m with
  | .next s, m => s.move m
  | .fault (.fatal _ s), .reset p => s.hostReset p
  | .refused (.stop s), .reset p => s.hostReset p
  | r, _ => r

/-- A run: the moves in order. -/
def State.moves (s : State) (ms : List Move) : Result := ms.foldl afterMove (.next s)

/-! ### `run_until_frame()` (R456) -/

/-- What `run_until_frame()` ends with (R456). -/
inductive FrameResult where
  | frame (image : Frame) (s : State)
  | stopped (s : State)
  | fault (f : Fault)
  | refused (r : Refusal)
  /-- The bound on the steps ran out (log 15). -/
  | unfinished (s : State)
deriving DecidableEq, Repr

/-- The moves of the environment between two system steps of the loop: R472 lets them come in any order
with its reading of `stop_requested` (D40, log 15). -/
structure Gap where
  beforeRead : List Move
  afterRead : List Move
deriving DecidableEq, Repr

/-- `run_until_frame()` (R456), through as many rounds of its loop as there are gaps (log 15). -/
def runUntilFrame : List Gap → State → FrameResult
  | [], s => .unfinished s
  | g :: rest, s =>
    match s.moves g.beforeRead with
    | .fault f => .fault f
    | .refused r => .refused r
    | .next s =>
      match s.fault, s.refused with
      | some e, _ => .fault (.fatal e s)
      | none, some .stop => .refused (.stop s)
      | none, none =>
        if s.ppu.frameReady then .frame s.drain.1 s.drain.2
        else if s.stopRequested then .stopped s
        else
          match s.moves (g.afterRead ++ [.step]) with
          | .next t => runUntilFrame rest t
          | .fault f => .fault f
          | .refused r => .refused r

end Sys2Proof.Machine
end

