-- ==== Sys2Proof/Safety.lean ====
section
/-! DEFINITION. The words the statements are made in: what each row of the opcode table does by its rule
(which registers and flags it writes, where it stores, what it costs), what the map and the storage
must look like, and what a state between two steps satisfies. Nothing of the machine uses this file. -/

namespace Sys2Proof

/-! ### The rows, sorted by what their rules say -/

/-- How a rule forms the address of a one-byte access (R164 to R176). -/
inductive Addr where
  | hl | bc | de
  | abs (a : Word)
  | high (n : Byte)
  | highC
deriving DecidableEq, Repr

/-- The kinds of rows, one for each rule or pair of rules of spec/40_load.md to spec/45_system.md. -/
inductive Shape where
  | move (dst src : Reg8)
  | imm (dst : Reg8) (n : Byte)
  | load (dst : Reg8) (a : Addr)
  | store (a : Addr) (src : Reg8)
  | storeImm (n : Byte)
  | loadStep (up : Bool)
  | storeStep (up : Bool)
  | pairImm (p : Pair) (n : Word)
  | storeSp (a : Word)
  | spFromHl
  | push (p : StackPair)
  | pop (p : StackPair)
  | alu (op : AluOp) (o : Operand8)
  | aluImm (op : AluOp) (n : Byte)
  | inc8 (o : Operand8)
  | dec8 (o : Operand8)
  | daa | cpl | scf | ccf
  | addHl (p : Pair)
  | inc16 (p : Pair)
  | dec16 (p : Pair)
  | addSp (e : Byte)
  | ldHlSp (e : Byte)
  | rotA (op : ShiftOp)
  | shift (op : ShiftOp) (o : Operand8)
  | bit (b : BitVec 3) (o : Operand8)
  | res (b : BitVec 3) (o : Operand8)
  | set (b : BitVec 3) (o : Operand8)
  | jp (q : Option Cond) (a : Word)
  | jpHl
  | jr (q : Option Cond) (e : Byte)
  | call (q : Option Cond) (a : Word)
  | ret (q : Option Cond)
  | reti
  | rst (t : BitVec 3)
  | nop | halt | stop | di | ei
  | cbPrefix
  | illegal (op : Byte)
deriving DecidableEq, Repr

/-- The kind of every row, read from its mnemonic in spec/opcode_table.json. -/
def Instr.shape : Instr → Shape
  | .nop => .nop
  | .ldBC_n16 n => .pairImm .bc n
  | .ldAtBC_A => .store .bc .a
  | .incBC => .inc16 .bc
  | .incB => .inc8 (.reg .b)
  | .decB => .dec8 (.reg .b)
  | .ldB_n8 n => .imm .b n
  | .rlca => .rotA .rlc
  | .ldA16_SP a => .storeSp a
  | .addHL_BC => .addHl .bc
  | .ldA_atBC => .load .a .bc
  | .decBC => .dec16 .bc
  | .incC => .inc8 (.reg .c)
  | .decC => .dec8 (.reg .c)
  | .ldC_n8 n => .imm .c n
  | .rrca => .rotA .rrc
  | .stop => .stop
  | .ldDE_n16 n => .pairImm .de n
  | .ldAtDE_A => .store .de .a
  | .incDE => .inc16 .de
  | .incD => .inc8 (.reg .d)
  | .decD => .dec8 (.reg .d)
  | .ldD_n8 n => .imm .d n
  | .rla => .rotA .rl
  | .jr e => .jr none e
  | .addHL_DE => .addHl .de
  | .ldA_atDE => .load .a .de
  | .decDE => .dec16 .de
  | .incE => .inc8 (.reg .e)
  | .decE => .dec8 (.reg .e)
  | .ldE_n8 n => .imm .e n
  | .rra => .rotA .rr
  | .jrNZ e => .jr (some .nz) e
  | .ldHL_n16 n => .pairImm .hl n
  | .ldHLI_A => .storeStep true
  | .incHL => .inc16 .hl
  | .incH => .inc8 (.reg .h)
  | .decH => .dec8 (.reg .h)
  | .ldH_n8 n => .imm .h n
  | .daa => .daa
  | .jrZ e => .jr (some .z) e
  | .addHL_HL => .addHl .hl
  | .ldA_HLI => .loadStep true
  | .decHL => .dec16 .hl
  | .incL => .inc8 (.reg .l)
  | .decL => .dec8 (.reg .l)
  | .ldL_n8 n => .imm .l n
  | .cpl => .cpl
  | .jrNC e => .jr (some .nc) e
  | .ldSP_n16 n => .pairImm .sp n
  | .ldHLD_A => .storeStep false
  | .incSP => .inc16 .sp
  | .incAtHL => .inc8 .atHL
  | .decAtHL => .dec8 .atHL
  | .ldAtHL_n8 n => .storeImm n
  | .scf => .scf
  | .jrC e => .jr (some .c) e
  | .addHL_SP => .addHl .sp
  | .ldA_HLD => .loadStep false
  | .decSP => .dec16 .sp
  | .incA => .inc8 (.reg .a)
  | .decA => .dec8 (.reg .a)
  | .ldA_n8 n => .imm .a n
  | .ccf => .ccf
  | .ldB_B => .move .b .b
  | .ldB_C => .move .b .c
  | .ldB_D => .move .b .d
  | .ldB_E => .move .b .e
  | .ldB_H => .move .b .h
  | .ldB_L => .move .b .l
  | .ldB_atHL => .load .b .hl
  | .ldB_A => .move .b .a
  | .ldC_B => .move .c .b
  | .ldC_C => .move .c .c
  | .ldC_D => .move .c .d
  | .ldC_E => .move .c .e
  | .ldC_H => .move .c .h
  | .ldC_L => .move .c .l
  | .ldC_atHL => .load .c .hl
  | .ldC_A => .move .c .a
  | .ldD_B => .move .d .b
  | .ldD_C => .move .d .c
  | .ldD_D => .move .d .d
  | .ldD_E => .move .d .e
  | .ldD_H => .move .d .h
  | .ldD_L => .move .d .l
  | .ldD_atHL => .load .d .hl
  | .ldD_A => .move .d .a
  | .ldE_B => .move .e .b
  | .ldE_C => .move .e .c
  | .ldE_D => .move .e .d
  | .ldE_E => .move .e .e
  | .ldE_H => .move .e .h
  | .ldE_L => .move .e .l
  | .ldE_atHL => .load .e .hl
  | .ldE_A => .move .e .a
  | .ldH_B => .move .h .b
  | .ldH_C => .move .h .c
  | .ldH_D => .move .h .d
  | .ldH_E => .move .h .e
  | .ldH_H => .move .h .h
  | .ldH_L => .move .h .l
  | .ldH_atHL => .load .h .hl
  | .ldH_A => .move .h .a
  | .ldL_B => .move .l .b
  | .ldL_C => .move .l .c
  | .ldL_D => .move .l .d
  | .ldL_E => .move .l .e
  | .ldL_H => .move .l .h
  | .ldL_L => .move .l .l
  | .ldL_atHL => .load .l .hl
  | .ldL_A => .move .l .a
  | .ldAtHL_B => .store .hl .b
  | .ldAtHL_C => .store .hl .c
  | .ldAtHL_D => .store .hl .d
  | .ldAtHL_E => .store .hl .e
  | .ldAtHL_H => .store .hl .h
  | .ldAtHL_L => .store .hl .l
  | .halt => .halt
  | .ldAtHL_A => .store .hl .a
  | .ldA_B => .move .a .b
  | .ldA_C => .move .a .c
  | .ldA_D => .move .a .d
  | .ldA_E => .move .a .e
  | .ldA_H => .move .a .h
  | .ldA_L => .move .a .l
  | .ldA_atHL => .load .a .hl
  | .ldA_A => .move .a .a
  | .add_B => .alu .add (.reg .b)
  | .add_C => .alu .add (.reg .c)
  | .add_D => .alu .add (.reg .d)
  | .add_E => .alu .add (.reg .e)
  | .add_H => .alu .add (.reg .h)
  | .add_L => .alu .add (.reg .l)
  | .add_atHL => .alu .add .atHL
  | .add_A => .alu .add (.reg .a)
  | .adc_B => .alu .adc (.reg .b)
  | .adc_C => .alu .adc (.reg .c)
  | .adc_D => .alu .adc (.reg .d)
  | .adc_E => .alu .adc (.reg .e)
  | .adc_H => .alu .adc (.reg .h)
  | .adc_L => .alu .adc (.reg .l)
  | .adc_atHL => .alu .adc .atHL
  | .adc_A => .alu .adc (.reg .a)
  | .sub_B => .alu .sub (.reg .b)
  | .sub_C => .alu .sub (.reg .c)
  | .sub_D => .alu .sub (.reg .d)
  | .sub_E => .alu .sub (.reg .e)
  | .sub_H => .alu .sub (.reg .h)
  | .sub_L => .alu .sub (.reg .l)
  | .sub_atHL => .alu .sub .atHL
  | .sub_A => .alu .sub (.reg .a)
  | .sbc_B => .alu .sbc (.reg .b)
  | .sbc_C => .alu .sbc (.reg .c)
  | .sbc_D => .alu .sbc (.reg .d)
  | .sbc_E => .alu .sbc (.reg .e)
  | .sbc_H => .alu .sbc (.reg .h)
  | .sbc_L => .alu .sbc (.reg .l)
  | .sbc_atHL => .alu .sbc .atHL
  | .sbc_A => .alu .sbc (.reg .a)
  | .and_B => .alu .and (.reg .b)
  | .and_C => .alu .and (.reg .c)
  | .and_D => .alu .and (.reg .d)
  | .and_E => .alu .and (.reg .e)
  | .and_H => .alu .and (.reg .h)
  | .and_L => .alu .and (.reg .l)
  | .and_atHL => .alu .and .atHL
  | .and_A => .alu .and (.reg .a)
  | .xor_B => .alu .xor (.reg .b)
  | .xor_C => .alu .xor (.reg .c)
  | .xor_D => .alu .xor (.reg .d)
  | .xor_E => .alu .xor (.reg .e)
  | .xor_H => .alu .xor (.reg .h)
  | .xor_L => .alu .xor (.reg .l)
  | .xor_atHL => .alu .xor .atHL
  | .xor_A => .alu .xor (.reg .a)
  | .or_B => .alu .or (.reg .b)
  | .or_C => .alu .or (.reg .c)
  | .or_D => .alu .or (.reg .d)
  | .or_E => .alu .or (.reg .e)
  | .or_H => .alu .or (.reg .h)
  | .or_L => .alu .or (.reg .l)
  | .or_atHL => .alu .or .atHL
  | .or_A => .alu .or (.reg .a)
  | .cp_B => .alu .cp (.reg .b)
  | .cp_C => .alu .cp (.reg .c)
  | .cp_D => .alu .cp (.reg .d)
  | .cp_E => .alu .cp (.reg .e)
  | .cp_H => .alu .cp (.reg .h)
  | .cp_L => .alu .cp (.reg .l)
  | .cp_atHL => .alu .cp .atHL
  | .cp_A => .alu .cp (.reg .a)
  | .retNZ => .ret (some .nz)
  | .popBC => .pop .bc
  | .jpNZ a => .jp (some .nz) a
  | .jp a => .jp none a
  | .callNZ a => .call (some .nz) a
  | .pushBC => .push .bc
  | .add_n8 n => .aluImm .add n
  | .rst00 => .rst 0
  | .retZ => .ret (some .z)
  | .ret => .ret none
  | .jpZ a => .jp (some .z) a
  | .prefixCb => .cbPrefix
  | .callZ a => .call (some .z) a
  | .call a => .call none a
  | .adc_n8 n => .aluImm .adc n
  | .rst08 => .rst 1
  | .retNC => .ret (some .nc)
  | .popDE => .pop .de
  | .jpNC a => .jp (some .nc) a
  | .illegalD3 => .illegal 0xD3
  | .callNC a => .call (some .nc) a
  | .pushDE => .push .de
  | .sub_n8 n => .aluImm .sub n
  | .rst10 => .rst 2
  | .retC => .ret (some .c)
  | .reti => .reti
  | .jpC a => .jp (some .c) a
  | .illegalDB => .illegal 0xDB
  | .callC a => .call (some .c) a
  | .illegalDD => .illegal 0xDD
  | .sbc_n8 n => .aluImm .sbc n
  | .rst18 => .rst 3
  | .ldhA8_A n => .store (.high n) .a
  | .popHL => .pop .hl
  | .ldhAtC_A => .store .highC .a
  | .illegalE3 => .illegal 0xE3
  | .illegalE4 => .illegal 0xE4
  | .pushHL => .push .hl
  | .and_n8 n => .aluImm .and n
  | .rst20 => .rst 4
  | .addSP_e8 e => .addSp e
  | .jpHL => .jpHl
  | .ldA16_A a => .store (.abs a) .a
  | .illegalEB => .illegal 0xEB
  | .illegalEC => .illegal 0xEC
  | .illegalED => .illegal 0xED
  | .xor_n8 n => .aluImm .xor n
  | .rst28 => .rst 5
  | .ldhA_a8 n => .load .a (.high n)
  | .popAF => .pop .af
  | .ldhA_atC => .load .a .highC
  | .di => .di
  | .illegalF4 => .illegal 0xF4
  | .pushAF => .push .af
  | .or_n8 n => .aluImm .or n
  | .rst30 => .rst 6
  | .ldHL_SPe8 e => .ldHlSp e
  | .ldSP_HL => .spFromHl
  | .ldA_a16 a => .load .a (.abs a)
  | .ei => .ei
  | .illegalFC => .illegal 0xFC
  | .illegalFD => .illegal 0xFD
  | .cp_n8 n => .aluImm .cp n
  | .rst38 => .rst 7
  | .rlc_B => .shift .rlc (.reg .b)
  | .rlc_C => .shift .rlc (.reg .c)
  | .rlc_D => .shift .rlc (.reg .d)
  | .rlc_E => .shift .rlc (.reg .e)
  | .rlc_H => .shift .rlc (.reg .h)
  | .rlc_L => .shift .rlc (.reg .l)
  | .rlc_atHL => .shift .rlc .atHL
  | .rlc_A => .shift .rlc (.reg .a)
  | .rrc_B => .shift .rrc (.reg .b)
  | .rrc_C => .shift .rrc (.reg .c)
  | .rrc_D => .shift .rrc (.reg .d)
  | .rrc_E => .shift .rrc (.reg .e)
  | .rrc_H => .shift .rrc (.reg .h)
  | .rrc_L => .shift .rrc (.reg .l)
  | .rrc_atHL => .shift .rrc .atHL
  | .rrc_A => .shift .rrc (.reg .a)
  | .rl_B => .shift .rl (.reg .b)
  | .rl_C => .shift .rl (.reg .c)
  | .rl_D => .shift .rl (.reg .d)
  | .rl_E => .shift .rl (.reg .e)
  | .rl_H => .shift .rl (.reg .h)
  | .rl_L => .shift .rl (.reg .l)
  | .rl_atHL => .shift .rl .atHL
  | .rl_A => .shift .rl (.reg .a)
  | .rr_B => .shift .rr (.reg .b)
  | .rr_C => .shift .rr (.reg .c)
  | .rr_D => .shift .rr (.reg .d)
  | .rr_E => .shift .rr (.reg .e)
  | .rr_H => .shift .rr (.reg .h)
  | .rr_L => .shift .rr (.reg .l)
  | .rr_atHL => .shift .rr .atHL
  | .rr_A => .shift .rr (.reg .a)
  | .sla_B => .shift .sla (.reg .b)
  | .sla_C => .shift .sla (.reg .c)
  | .sla_D => .shift .sla (.reg .d)
  | .sla_E => .shift .sla (.reg .e)
  | .sla_H => .shift .sla (.reg .h)
  | .sla_L => .shift .sla (.reg .l)
  | .sla_atHL => .shift .sla .atHL
  | .sla_A => .shift .sla (.reg .a)
  | .sra_B => .shift .sra (.reg .b)
  | .sra_C => .shift .sra (.reg .c)
  | .sra_D => .shift .sra (.reg .d)
  | .sra_E => .shift .sra (.reg .e)
  | .sra_H => .shift .sra (.reg .h)
  | .sra_L => .shift .sra (.reg .l)
  | .sra_atHL => .shift .sra .atHL
  | .sra_A => .shift .sra (.reg .a)
  | .swap_B => .shift .swap (.reg .b)
  | .swap_C => .shift .swap (.reg .c)
  | .swap_D => .shift .swap (.reg .d)
  | .swap_E => .shift .swap (.reg .e)
  | .swap_H => .shift .swap (.reg .h)
  | .swap_L => .shift .swap (.reg .l)
  | .swap_atHL => .shift .swap .atHL
  | .swap_A => .shift .swap (.reg .a)
  | .srl_B => .shift .srl (.reg .b)
  | .srl_C => .shift .srl (.reg .c)
  | .srl_D => .shift .srl (.reg .d)
  | .srl_E => .shift .srl (.reg .e)
  | .srl_H => .shift .srl (.reg .h)
  | .srl_L => .shift .srl (.reg .l)
  | .srl_atHL => .shift .srl .atHL
  | .srl_A => .shift .srl (.reg .a)
  | .bit0_B => .bit 0 (.reg .b)
  | .bit0_C => .bit 0 (.reg .c)
  | .bit0_D => .bit 0 (.reg .d)
  | .bit0_E => .bit 0 (.reg .e)
  | .bit0_H => .bit 0 (.reg .h)
  | .bit0_L => .bit 0 (.reg .l)
  | .bit0_atHL => .bit 0 .atHL
  | .bit0_A => .bit 0 (.reg .a)
  | .bit1_B => .bit 1 (.reg .b)
  | .bit1_C => .bit 1 (.reg .c)
  | .bit1_D => .bit 1 (.reg .d)
  | .bit1_E => .bit 1 (.reg .e)
  | .bit1_H => .bit 1 (.reg .h)
  | .bit1_L => .bit 1 (.reg .l)
  | .bit1_atHL => .bit 1 .atHL
  | .bit1_A => .bit 1 (.reg .a)
  | .bit2_B => .bit 2 (.reg .b)
  | .bit2_C => .bit 2 (.reg .c)
  | .bit2_D => .bit 2 (.reg .d)
  | .bit2_E => .bit 2 (.reg .e)
  | .bit2_H => .bit 2 (.reg .h)
  | .bit2_L => .bit 2 (.reg .l)
  | .bit2_atHL => .bit 2 .atHL
  | .bit2_A => .bit 2 (.reg .a)
  | .bit3_B => .bit 3 (.reg .b)
  | .bit3_C => .bit 3 (.reg .c)
  | .bit3_D => .bit 3 (.reg .d)
  | .bit3_E => .bit 3 (.reg .e)
  | .bit3_H => .bit 3 (.reg .h)
  | .bit3_L => .bit 3 (.reg .l)
  | .bit3_atHL => .bit 3 .atHL
  | .bit3_A => .bit 3 (.reg .a)
  | .bit4_B => .bit 4 (.reg .b)
  | .bit4_C => .bit 4 (.reg .c)
  | .bit4_D => .bit 4 (.reg .d)
  | .bit4_E => .bit 4 (.reg .e)
  | .bit4_H => .bit 4 (.reg .h)
  | .bit4_L => .bit 4 (.reg .l)
  | .bit4_atHL => .bit 4 .atHL
  | .bit4_A => .bit 4 (.reg .a)
  | .bit5_B => .bit 5 (.reg .b)
  | .bit5_C => .bit 5 (.reg .c)
  | .bit5_D => .bit 5 (.reg .d)
  | .bit5_E => .bit 5 (.reg .e)
  | .bit5_H => .bit 5 (.reg .h)
  | .bit5_L => .bit 5 (.reg .l)
  | .bit5_atHL => .bit 5 .atHL
  | .bit5_A => .bit 5 (.reg .a)
  | .bit6_B => .bit 6 (.reg .b)
  | .bit6_C => .bit 6 (.reg .c)
  | .bit6_D => .bit 6 (.reg .d)
  | .bit6_E => .bit 6 (.reg .e)
  | .bit6_H => .bit 6 (.reg .h)
  | .bit6_L => .bit 6 (.reg .l)
  | .bit6_atHL => .bit 6 .atHL
  | .bit6_A => .bit 6 (.reg .a)
  | .bit7_B => .bit 7 (.reg .b)
  | .bit7_C => .bit 7 (.reg .c)
  | .bit7_D => .bit 7 (.reg .d)
  | .bit7_E => .bit 7 (.reg .e)
  | .bit7_H => .bit 7 (.reg .h)
  | .bit7_L => .bit 7 (.reg .l)
  | .bit7_atHL => .bit 7 .atHL
  | .bit7_A => .bit 7 (.reg .a)
  | .res0_B => .res 0 (.reg .b)
  | .res0_C => .res 0 (.reg .c)
  | .res0_D => .res 0 (.reg .d)
  | .res0_E => .res 0 (.reg .e)
  | .res0_H => .res 0 (.reg .h)
  | .res0_L => .res 0 (.reg .l)
  | .res0_atHL => .res 0 .atHL
  | .res0_A => .res 0 (.reg .a)
  | .res1_B => .res 1 (.reg .b)
  | .res1_C => .res 1 (.reg .c)
  | .res1_D => .res 1 (.reg .d)
  | .res1_E => .res 1 (.reg .e)
  | .res1_H => .res 1 (.reg .h)
  | .res1_L => .res 1 (.reg .l)
  | .res1_atHL => .res 1 .atHL
  | .res1_A => .res 1 (.reg .a)
  | .res2_B => .res 2 (.reg .b)
  | .res2_C => .res 2 (.reg .c)
  | .res2_D => .res 2 (.reg .d)
  | .res2_E => .res 2 (.reg .e)
  | .res2_H => .res 2 (.reg .h)
  | .res2_L => .res 2 (.reg .l)
  | .res2_atHL => .res 2 .atHL
  | .res2_A => .res 2 (.reg .a)
  | .res3_B => .res 3 (.reg .b)
  | .res3_C => .res 3 (.reg .c)
  | .res3_D => .res 3 (.reg .d)
  | .res3_E => .res 3 (.reg .e)
  | .res3_H => .res 3 (.reg .h)
  | .res3_L => .res 3 (.reg .l)
  | .res3_atHL => .res 3 .atHL
  | .res3_A => .res 3 (.reg .a)
  | .res4_B => .res 4 (.reg .b)
  | .res4_C => .res 4 (.reg .c)
  | .res4_D => .res 4 (.reg .d)
  | .res4_E => .res 4 (.reg .e)
  | .res4_H => .res 4 (.reg .h)
  | .res4_L => .res 4 (.reg .l)
  | .res4_atHL => .res 4 .atHL
  | .res4_A => .res 4 (.reg .a)
  | .res5_B => .res 5 (.reg .b)
  | .res5_C => .res 5 (.reg .c)
  | .res5_D => .res 5 (.reg .d)
  | .res5_E => .res 5 (.reg .e)
  | .res5_H => .res 5 (.reg .h)
  | .res5_L => .res 5 (.reg .l)
  | .res5_atHL => .res 5 .atHL
  | .res5_A => .res 5 (.reg .a)
  | .res6_B => .res 6 (.reg .b)
  | .res6_C => .res 6 (.reg .c)
  | .res6_D => .res 6 (.reg .d)
  | .res6_E => .res 6 (.reg .e)
  | .res6_H => .res 6 (.reg .h)
  | .res6_L => .res 6 (.reg .l)
  | .res6_atHL => .res 6 .atHL
  | .res6_A => .res 6 (.reg .a)
  | .res7_B => .res 7 (.reg .b)
  | .res7_C => .res 7 (.reg .c)
  | .res7_D => .res 7 (.reg .d)
  | .res7_E => .res 7 (.reg .e)
  | .res7_H => .res 7 (.reg .h)
  | .res7_L => .res 7 (.reg .l)
  | .res7_atHL => .res 7 .atHL
  | .res7_A => .res 7 (.reg .a)
  | .set0_B => .set 0 (.reg .b)
  | .set0_C => .set 0 (.reg .c)
  | .set0_D => .set 0 (.reg .d)
  | .set0_E => .set 0 (.reg .e)
  | .set0_H => .set 0 (.reg .h)
  | .set0_L => .set 0 (.reg .l)
  | .set0_atHL => .set 0 .atHL
  | .set0_A => .set 0 (.reg .a)
  | .set1_B => .set 1 (.reg .b)
  | .set1_C => .set 1 (.reg .c)
  | .set1_D => .set 1 (.reg .d)
  | .set1_E => .set 1 (.reg .e)
  | .set1_H => .set 1 (.reg .h)
  | .set1_L => .set 1 (.reg .l)
  | .set1_atHL => .set 1 .atHL
  | .set1_A => .set 1 (.reg .a)
  | .set2_B => .set 2 (.reg .b)
  | .set2_C => .set 2 (.reg .c)
  | .set2_D => .set 2 (.reg .d)
  | .set2_E => .set 2 (.reg .e)
  | .set2_H => .set 2 (.reg .h)
  | .set2_L => .set 2 (.reg .l)
  | .set2_atHL => .set 2 .atHL
  | .set2_A => .set 2 (.reg .a)
  | .set3_B => .set 3 (.reg .b)
  | .set3_C => .set 3 (.reg .c)
  | .set3_D => .set 3 (.reg .d)
  | .set3_E => .set 3 (.reg .e)
  | .set3_H => .set 3 (.reg .h)
  | .set3_L => .set 3 (.reg .l)
  | .set3_atHL => .set 3 .atHL
  | .set3_A => .set 3 (.reg .a)
  | .set4_B => .set 4 (.reg .b)
  | .set4_C => .set 4 (.reg .c)
  | .set4_D => .set 4 (.reg .d)
  | .set4_E => .set 4 (.reg .e)
  | .set4_H => .set 4 (.reg .h)
  | .set4_L => .set 4 (.reg .l)
  | .set4_atHL => .set 4 .atHL
  | .set4_A => .set 4 (.reg .a)
  | .set5_B => .set 5 (.reg .b)
  | .set5_C => .set 5 (.reg .c)
  | .set5_D => .set 5 (.reg .d)
  | .set5_E => .set 5 (.reg .e)
  | .set5_H => .set 5 (.reg .h)
  | .set5_L => .set 5 (.reg .l)
  | .set5_atHL => .set 5 .atHL
  | .set5_A => .set 5 (.reg .a)
  | .set6_B => .set 6 (.reg .b)
  | .set6_C => .set 6 (.reg .c)
  | .set6_D => .set 6 (.reg .d)
  | .set6_E => .set 6 (.reg .e)
  | .set6_H => .set 6 (.reg .h)
  | .set6_L => .set 6 (.reg .l)
  | .set6_atHL => .set 6 .atHL
  | .set6_A => .set 6 (.reg .a)
  | .set7_B => .set 7 (.reg .b)
  | .set7_C => .set 7 (.reg .c)
  | .set7_D => .set 7 (.reg .d)
  | .set7_E => .set 7 (.reg .e)
  | .set7_H => .set 7 (.reg .h)
  | .set7_L => .set 7 (.reg .l)
  | .set7_atHL => .set 7 .atHL
  | .set7_A => .set 7 (.reg .a)

/-- The four flags, one Boolean each (R32). -/
structure FlagSet where
  z : Bool
  n : Bool
  h : Bool
  c : Bool
deriving DecidableEq, Repr

/-- `POP AF` writes all of F (R33, R186). -/
def StackPair.flagsWritten : StackPair → FlagSet
  | .af => ⟨true, true, true, true⟩
  | .bc | .de | .hl => ⟨false, false, false, false⟩

/-- Which flags a row writes: the table of R33. -/
def Shape.flagsWritten : Shape → FlagSet
  | .alu .. | .aluImm .. | .rotA _ | .shift .. | .addSp _ | .ldHlSp _ => ⟨true, true, true, true⟩
  | .inc8 _ | .dec8 _ => ⟨true, true, true, false⟩
  | .daa => ⟨true, false, true, true⟩
  | .cpl => ⟨false, true, true, false⟩
  | .scf | .ccf | .addHl _ => ⟨false, true, true, true⟩
  | .bit .. => ⟨true, true, true, false⟩
  | .pop p => p.flagsWritten
  | _ => ⟨false, false, false, false⟩

/-- The halves of a pair. -/
def Pair.halves : Pair → List Reg8
  | .bc => [.b, .c] | .de => [.d, .e] | .hl => [.h, .l] | .sp => []

def StackPair.halves : StackPair → List Reg8
  | .bc => [.b, .c] | .de => [.d, .e] | .hl => [.h, .l] | .af => [.a]

def Operand8.regs : Operand8 → List Reg8
  | .reg r => [r] | .atHL => []

/-- An accumulator operation writes A, but for CP (R227). -/
def AluOp.regs : AluOp → List Reg8
  | .cp => []
  | .add | .adc | .sub | .sbc | .and | .xor | .or => [.a]

def Pair.isSp : Pair → Bool
  | .sp => true
  | .bc | .de | .hl => false

/-- Which general registers but F a row writes, by the pseudocode of its rule. -/
def Shape.regsWritten : Shape → List Reg8
  | .move r _ | .imm r _ | .load r _ => [r]
  | .loadStep _ => [.a, .h, .l]
  | .storeStep _ => [.h, .l]
  | .pairImm p _ | .inc16 p | .dec16 p => p.halves
  | .pop p => p.halves
  | .alu op _ | .aluImm op _ => op.regs
  | .daa | .cpl | .rotA _ => [.a]
  | .inc8 o | .dec8 o | .shift _ o | .res _ o | .set _ o => o.regs
  | .addHl _ | .ldHlSp _ => [.h, .l]
  | _ => []

/-- The rows that can write SP (R35). -/
def Shape.writesSp : Shape → Bool
  | .pairImm p _ | .inc16 p | .dec16 p => p.isSp
  | .spFromHl | .addSp _ => true
  | .push _ | .pop _ | .call .. | .ret _ | .reti | .rst _ => true
  | _ => false

/-- The control transfers, the rows that can overwrite PC (R34, spec/44_control.md). -/
def Shape.writesPc : Shape → Bool
  | .jp .. | .jpHl | .jr .. | .call .. | .ret _ | .reti | .rst _ => true
  | _ => false

/-- The condition of a row holds, or it has none (R310). -/
def condHolds (q : Option Cond) (s : Machine.State) : Bool :=
  match q with
  | none => true
  | some .nz => s.flags.z == false
  | some .z => s.flags.z == true
  | some .nc => s.flags.c == false
  | some .c => s.flags.c == true

/-- The address of a one-byte access, at the state the row runs on (R164 to R176). -/
def Addr.at (p : Addr) (s : Machine.State) : Word :=
  match p with
  | .hl => s.hl
  | .bc => s.bc
  | .de => s.de
  | .abs a => a
  | .high n => 0xFF00 + zext16 n
  | .highC => 0xFF00 + zext16 s.regs.c

/-- The addresses an operand form that is written back stores to. -/
def Operand8.stores (o : Operand8) (s : Machine.State) : List Word :=
  match o with
  | .reg _ => []
  | .atHL => [s.hl]

/-- Where a row stores, at the state it runs on: the addresses of the `MemWrite`s of its rule. -/
def Shape.stores (sh : Shape) (s : Machine.State) : List Word :=
  match sh with
  | .store p _ => [p.at s]
  | .storeImm _ | .storeStep _ => [s.hl]
  | .storeSp a => [a, a + 1]
  | .push _ | .rst _ => [s.sp - 1, s.sp - 2]
  | .call q _ => if condHolds q s then [s.sp - 1, s.sp - 2] else []
  | .inc8 o | .dec8 o | .shift _ o | .res _ o | .set _ o => o.stores s
  | _ => []

/-- The count of a row with a register form and a (HL) form. -/
def Operand8.cost (o : Operand8) (reg mem : Nat) : Nat :=
  match o with
  | .reg _ => reg
  | .atHL => mem

/-- The count of a one-byte access of A or of a register (R164 to R176). -/
def Addr.cost : Addr → Nat
  | .hl | .bc | .de | .highC => 2
  | .high _ => 3
  | .abs _ => 4

/-- The M-cycles of a row at the state it runs on: the table of R491. -/
def Shape.cycles (sh : Shape) (s : Machine.State) : Nat :=
  match sh with
  | .nop | .halt | .di | .ei | .daa | .cpl | .scf | .ccf | .rotA _ | .stop => 1
  | .move .. | .jpHl => 1
  | .imm .. | .loadStep _ | .storeStep _ | .aluImm .. => 2
  | .load _ p | .store p _ => p.cost
  | .alu _ o => o.cost 1 2
  | .inc16 _ | .dec16 _ | .addHl _ | .spFromHl => 2
  | .pairImm .. | .storeImm _ | .pop _ | .ldHlSp _ => 3
  | .inc8 o | .dec8 o => o.cost 1 3
  | .push _ | .addSp _ | .rst _ | .reti => 4
  | .storeSp _ => 5
  | .jp q _ => if condHolds q s then 4 else 3
  | .jr q _ => if condHolds q s then 3 else 2
  | .call q _ => if condHolds q s then 6 else 3
  | .ret q => if q = none then 4 else if condHolds q s then 5 else 2
  | .bit _ o => o.cost 2 3
  | .shift _ o | .res _ o | .set _ o => o.cost 2 4
  | .cbPrefix | .illegal _ => 0

/-! ### The fields of the opcode bytes (R132 to R138) -/

/-- The register field of a register (R134). -/
def Reg8.field : Reg8 → Byte
  | .b => 0 | .c => 1 | .d => 2 | .e => 3 | .h => 4 | .l => 5 | .a => 7

/-- The register field of an operand: 6 is (HL) (R134). -/
def Operand8.field : Operand8 → Byte
  | .reg r => r.field
  | .atHL => 6

/-- The field `rp` (R135). -/
def Pair.field : Pair → Byte
  | .bc => 0 | .de => 1 | .hl => 2 | .sp => 3

/-- The field `rp2` (R135). -/
def StackPair.field : StackPair → Byte
  | .bc => 0 | .de => 1 | .hl => 2 | .af => 3

/-- The field `cc` (R136). -/
def Cond.field : Cond → Byte
  | .nz => 0 | .z => 1 | .nc => 2 | .c => 3

/-- The operation field of spec/41_alu8.md section 2. -/
def AluOp.field : AluOp → Byte
  | .add => 0 | .adc => 1 | .sub => 2 | .sbc => 3 | .and => 4 | .xor => 5 | .or => 6 | .cp => 7

/-- The operation field of a CB byte of group 0 (R133). -/
def ShiftOp.field : ShiftOp → Byte
  | .rlc => 0 | .rrc => 1 | .rl => 2 | .rr => 3 | .sla => 4 | .sra => 5 | .swap => 6 | .srl => 7

namespace Machine

/-! ### Results, in the arithmetic of words -/

/-- The flags of an addition with carry in (R201). -/
def addFlags (a b cin : Byte) : Flags where
  z := decide (a + b + cin = 0)
  n := false
  h := decide (16 ≤ a.toNat % 16 + b.toNat % 16 + cin.toNat)
  c := decide (256 ≤ a.toNat + b.toNat + cin.toNat)

/-- The flags of a subtraction with borrow in (R202). -/
def subFlags (a b cin : Byte) : Flags where
  z := decide (a - b - cin = 0)
  n := true
  h := decide (a.toNat % 16 < b.toNat % 16 + cin.toNat)
  c := decide (a.toNat < b.toNat + cin.toNat)

/-- The carry flag as the byte 0 or 1. -/
def State.carryByte (s : State) : Byte := if s.flags.c then 1 else 0

/-- The result of a rotate or shift, by whole-word operations (R275 to R290). -/
def shifted (op : ShiftOp) (v cin : Byte) : Byte :=
  match op with
  | .rlc => v.rotateLeft 1
  | .rrc => v.rotateRight 1
  | .rl => v <<< 1 ||| cin
  | .rr => v >>> 1 ||| cin <<< 7
  | .sla => v <<< 1
  | .sra => v.sshiftRight 1
  | .swap => v.rotateLeft 4
  | .srl => v >>> 1

/-- The bit that goes to C (R275 to R290): bit 7 of a left shift, bit 0 of a right shift, none of SWAP. -/
def shiftedOut (op : ShiftOp) (v : Byte) : Bool :=
  match op with
  | .rlc | .rl | .sla => v.msb
  | .rrc | .rr | .sra | .srl => v.getLsbD 0
  | .swap => false

/-! ### Stores -/

/-- The two addresses whose writes run a hook (R95, R96). -/
def hooked (a : Word) : Bool := decide (a = 0xFF46) || decide (a = 0xFF50)

/-- A byte stored through a mapping, where no hook runs (R85, R90). -/
def State.stored (s : State) (m : Mapping) (a : Word) (v : Byte) : State :=
  if m.readOnly then s else s.writeStore m.store a.toNat v

/-- Every address from `lo` to `hi`. -/
def inRange (lo hi a : Word) : Prop := lo.toNat ≤ a.toNat ∧ a.toNat ≤ hi.toNat

/-! ### What holds of a state between two steps -/

/-- The address of a scalar (R100). -/
def IoReg.addr : IoReg → Nat
  | .joyp => 0xFF00 | .sb => 0xFF01 | .sc => 0xFF02 | .tma => 0xFF06 | .tac => 0xFF07
  | .iflag => 0xFF0F | .lcdc => 0xFF40 | .stat => 0xFF41 | .scy => 0xFF42 | .scx => 0xFF43
  | .ly => 0xFF44 | .lyc => 0xFF45 | .dma => 0xFF46 | .bgp => 0xFF47 | .obp0 => 0xFF48
  | .obp1 => 0xFF49 | .wy => 0xFF4A | .wx => 0xFF4B | .boot => 0xFF50 | .ie => 0xFFFF

/-- A mapping stands where R100 puts what backs it: a scalar at its own address, LY alone read-only
(R48), the boot ROM read-only at 0x0000 (R102). -/
def Mapping.atHome (m : Mapping) : Bool :=
  match m.store with
  | .memory | .platform => true
  | .bootRom => m.readOnly && decide (m.base = 0) && decide (m.size = 0x100)
  | .scalar r => decide (m.base = r.addr) && decide (m.readOnly = decide (r = .ly))

/-- The mappings of R100 that every reset builds, whatever its parameters, but for 0x0000-0x00FF. -/
def alwaysMapped : BusMap :=
  [⟨0x0100, 0x3F00, true, .memory⟩, ⟨0x8000, 0x2000, false, .memory⟩] ++ fixedMap

/-- The set of mappings is one R81 and R100 allow. -/
def State.mapOk (s : State) : Bool :=
  s.map.Sorted && s.map.all Mapping.valid && s.map.all Mapping.atHome &&
    decide (bootArea s.bootMapped ∈ s.map) && alwaysMapped.all (fun m => decide (m ∈ s.map))

/-- Every sparse storage is in its canonical form. -/
def State.storageOk (s : State) : Bool :=
  s.mem.wf && s.bootRom.wf && s.ppu.front.wf && s.ppu.back.wf

/-- The control state of the CPU between two steps: it can step, and an armed EI counts with IME = 0
(R37, R39, R344). -/
def State.cpuOk (s : State) : Bool :=
  decide (s.fault = none) && decide (s.refused = none) && decide (s.eiDelay ≤ 1) &&
    (decide (s.eiDelay = 0) || !s.ime)

/-! ### The pace of PixelTransfer -/

/-- What PixelTransfer does apart from the pixels' values. -/
structure Pace where
  phase : Bool
  fstate : FetchState
  fetchIdx : Byte
  fifoLen : Nat
  x : Nat
deriving DecidableEq, Repr

/-- One fetcher step (R424 to R427), the values left out. -/
def Pace.fetch (p : Pace) : Pace :=
  match p.fstate with
  | .tileNumber => { p with fstate := .tileDataLow }
  | .tileDataLow => { p with fstate := .tileDataHigh }
  | .tileDataHigh => { p with fstate := .pushToFifo }
  | .pushToFifo =>
    if p.fifoLen ≤ 8 then
      { p with fstate := .tileNumber, fetchIdx := p.fetchIdx + 1, fifoLen := p.fifoLen + 8 }
    else p

/-- One tick of PixelTransfer (R423), the values left out. -/
def Pace.tick (p : Pace) : Pace :=
  let q := if p.phase then p.fetch else p
  if q.fifoLen > 8 then
    { q with phase := !q.phase, fifoLen := q.fifoLen - 1, x := q.x + 1 }
  else { q with phase := !q.phase }

/-- The pace after `n` ticks of PixelTransfer, from the reset of R422. -/
def Pace.after : Nat → Pace
  | 0 => ⟨false, .tileNumber, 0, 0, 0⟩
  | n + 1 => (Pace.after n).tick

/-- The pace a PPU is at. -/
def Ppu.pace (p : Ppu) : Pace := ⟨p.fetchPhase, p.fstate, p.fetchIdx, p.fifo.length, p.x⟩

/-- The mode agrees with the line and with the tick of the line: OAMSearch ends at line tick 80,
PixelTransfer at 255, a line at 456; lines 144 to 153 are VBlank (R422, R429, R430, R432, R492). -/
def State.lineOk (s : State) : Bool :=
  match s.ppu.mode with
  | .oamSearch => decide (s.io.ly.toNat < 144) && decide (s.ppu.lineTick < 80)
  | .pixelTransfer =>
    decide (s.io.ly.toNat < 144) && decide (80 ≤ s.ppu.lineTick) && decide (s.ppu.lineTick < 255) &&
      decide (s.ppu.pace = Pace.after (s.ppu.lineTick - 80))
  | .hblank =>
    decide (s.io.ly.toNat < 144) && decide (255 ≤ s.ppu.lineTick) && decide (s.ppu.lineTick < 456)
  | .vblank =>
    decide (144 ≤ s.io.ly.toNat) && decide (s.io.ly.toNat ≤ 153) && decide (s.ppu.lineTick < 456)

/-- What LcdDisable leaves and holds while the LCD is off (R421). -/
def State.offOk (s : State) : Bool :=
  decide (s.ppu.mode = .hblank) && decide (s.io.ly = 0) && decide (s.ppu.lineTick = 0) &&
    decide (s.ppu.pace = ⟨false, .tileNumber, 0, 0, 0⟩) && !s.ppu.statLine

/-- The PPU between two ticks: the bounds of R59 and R60 hold, and the mode fits the line while the LCD
is on. -/
def State.engineOk (s : State) : Bool :=
  decide (s.ppu.fifo.length ≤ 16) && decide (s.ppu.x ≤ 160) &&
    (if s.ppu.lcdOn then s.lineOk else s.offOk)

/-- The PPU between two steps: the last tick saw LCDC bit 7, and wrote STAT and the STAT condition where
it was 1 (R420, R441, R442). STAT's condition is the rising edge's memory, but before the first tick. -/
def State.ppuOk (s : State) : Bool :=
  s.engineOk && decide (s.ppu.lcdOn = s.io.lcdc.getLsbD 7) &&
    (!s.ppu.lcdOn ||
      (decide (s.io.stat = statByte s.io.stat s.ppu.mode s.io.ly s.io.lyc) &&
        decide (s.ppu.statLine = statCond s.io.stat s.ppu.mode)))

/-- No two of a list of mappings name a common address, which is what adding them one by one needs (R82). -/
def BusMap.Apart (ms : List Mapping) : Prop := ms.Pairwise fun m n => m.overlaps n = false

/-- The addresses `RAM_INIT` gives a byte (R9, R103): VRAM, cartridge RAM of a size, work RAM, OAM, HRAM. -/
def inRam (cartRamSize : Nat) (a : Word) : Prop :=
  inRange 0x8000 0x9FFF a ∨ (0xA000 ≤ a.toNat ∧ a.toNat < 0xA000 + cartRamSize) ∨
    inRange 0xC000 0xDFFF a ∨ inRange 0xFE00 0xFE9F a ∨ inRange 0xFF80 0xFFFE a

/-- Parameters of a reset that R9, R81 and R103 allow. -/
def ResetParams.Allowed (p : ResetParams) : Prop :=
  p.cartRamSize ≤ 0x2000 ∧ ∀ e ∈ p.extra, e.mapping.valid = true

/-- What holds of every state between two steps. -/
def State.Inv (s : State) : Prop :=
  s.storageOk = true ∧ s.mapOk = true ∧ s.cpuOk = true ∧ s.ppuOk = true

/-! ### The picture -/

/-- The tile a pixel of the background belongs to (R424). -/
def State.bgTile (s : State) (row col : Nat) : Byte :=
  s.mem.read ((if s.io.lcdc.getLsbD 3 then 0x9C00 else 0x9800) + 32 * (row / 8) + col / 8)

/-- The address of the low plane of a row of a tile: an unsigned or a signed index (R425). -/
def State.bgTileRow (s : State) (tile : Byte) (row : Nat) : Nat :=
  (if s.io.lcdc.getLsbD 4 then 0x8000 + 16 * tile.toNat
    else if tile.toNat < 128 then 0x9000 + 16 * tile.toNat else 0x8000 + 16 * tile.toNat) +
    2 * (row % 8)

/-- The shade of a pixel of the background, from VRAM, LCDC and BGP (R424 to R428, R51). -/
def State.bgPixel (s : State) (row col : Nat) : Shade :=
  let a := s.bgTileRow (s.bgTile row col) row
  let lo := s.mem.read a
  let hi := s.mem.read (a + 1)
  let k := 7 - col % 8
  let i := 2 * (hi.getLsbD k).toNat + (lo.getLsbD k).toNat
  BitVec.ofBool (s.io.bgp.getLsbD (2 * i + 1)) ++ BitVec.ofBool (s.io.bgp.getLsbD (2 * i))

/-! ### Forms of instruction results

Each says, for one instruction at one state, the whole next state, and where it stops. -/

/-- The stop of an access that finds no mapping: the record of R360, over the state left so far (R362). -/
def State.stopsAt (s : State) (a : Word) (access : Access) : Result :=
  .fault (.fatal (.unmapped a access s.pc0) { s with fault := some (.unmapped a access s.pc0) })

/-- `i` loads register `r` with the byte at `a` in `n` M-cycles, and changes nothing else. -/
def LoadsByte (i : Instr) (s : State) (r : Reg8) (a : Word) (n : Nat) : Prop :=
  (∀ v, s.read8 a = some v →
    exec i s = .next { s with regs := s.regs.set r v, stepCycles := s.stepCycles + n }) ∧
  (s.read8 a = none → exec i s = s.stopsAt a .read)

/-- `i` stores `v` at `a` in `n` M-cycles, and changes nothing else: through the mapping of `a` where no
hook runs, by `write8` with its hook everywhere. -/
def StoresByte (i : Instr) (s : State) (a : Word) (v : Byte) (n : Nat) : Prop :=
  (∀ m, s.map.lookup a.toNat = some m → hooked a = false →
    exec i s = .next { s.stored m a v with stepCycles := s.stepCycles + n }) ∧
  (s.map.lookup a.toNat = none → exec i s = s.stopsAt a .write) ∧
  (∀ t, s.write8 a v = .ok t → exec i s = .next { t with stepCycles := s.stepCycles + n }) ∧
  (∀ f, s.write8 a v = .error f → exec i s = .fault f)

/-- `i` replaces the byte `v` at HL by `f v` and sets the flags to `g v`, which stand before the store, in
`n` M-cycles, and changes nothing else. -/
def ModifiesHL (i : Instr) (s : State) (f : Byte → Byte) (g : Byte → Flags) (n : Nat) : Prop :=
  (∀ v m, s.read8 s.hl = some v → s.map.lookup s.hl.toNat = some m → hooked s.hl = false →
    exec i s = .next { s.stored m s.hl (f v) with flags := g v, stepCycles := s.stepCycles + n }) ∧
  (s.read8 s.hl = none → exec i s = s.stopsAt s.hl .read) ∧
  (∀ v t, s.read8 s.hl = some v → ({ s with flags := g v } : State).write8 s.hl (f v) = .ok t →
    exec i s = .next { t with stepCycles := s.stepCycles + n }) ∧
  (∀ v e, s.read8 s.hl = some v → ({ s with flags := g v } : State).write8 s.hl (f v) = .error e →
    exec i s = .fault e)

/-- `i` pushes `v`, the high byte first, sets PC to `target` in `n` M-cycles, and changes nothing else:
through the mappings where no hook runs, by `write8` with its hook everywhere. A stop on the second write
leaves SP two lower and the first byte written. -/
def Pushes (i : Instr) (s : State) (v target : Word) (n : Nat) : Prop :=
  (∀ m m', s.map.lookup (s.sp - 1).toNat = some m → s.map.lookup (s.sp - 2).toNat = some m' →
    hooked (s.sp - 1) = false → hooked (s.sp - 2) = false →
    exec i s = .next
      { (s.stored m (s.sp - 1) (hi8 v)).stored m' (s.sp - 2) (lo8 v) with
        sp := s.sp - 2, pc := target, stepCycles := s.stepCycles + n }) ∧
  (s.map.lookup (s.sp - 1).toNat = none →
    exec i s = ({ s with sp := s.sp - 1 } : State).stopsAt (s.sp - 1) .write) ∧
  (∀ m, s.map.lookup (s.sp - 1).toNat = some m → hooked (s.sp - 1) = false →
    s.map.lookup (s.sp - 2).toNat = none →
    exec i s = ({ s.stored m (s.sp - 1) (hi8 v) with sp := s.sp - 2 } : State).stopsAt (s.sp - 2) .write) ∧
  (∀ t u, ({ s with sp := s.sp - 1 } : State).write8 (s.sp - 1) (hi8 v) = .ok t →
    ({ t with sp := s.sp - 2 } : State).write8 (s.sp - 2) (lo8 v) = .ok u →
    exec i s = .next { u with pc := target, stepCycles := s.stepCycles + n }) ∧
  (∀ f, ({ s with sp := s.sp - 1 } : State).write8 (s.sp - 1) (hi8 v) = .error f → exec i s = .fault f) ∧
  (∀ t f, ({ s with sp := s.sp - 1 } : State).write8 (s.sp - 1) (hi8 v) = .ok t →
    ({ t with sp := s.sp - 2 } : State).write8 (s.sp - 2) (lo8 v) = .error f → exec i s = .fault f)

/-- `i` pops two bytes, the low byte first, moves SP up by two and ends in `out` of the popped value. A
stop on the second read leaves SP one higher. -/
def Pops (i : Instr) (s : State) (out : Word → State) : Prop :=
  (∀ lo hi, s.read8 s.sp = some lo → s.read8 (s.sp + 1) = some hi →
    exec i s = .next { out (hi ++ lo) with sp := s.sp + 2 }) ∧
  (s.read8 s.sp = none → exec i s = s.stopsAt s.sp .read) ∧
  (∀ lo, s.read8 s.sp = some lo → s.read8 (s.sp + 1) = none →
    exec i s = ({ s with sp := s.sp + 1 } : State).stopsAt (s.sp + 1) .read)

/-- The three operand forms of an accumulator operation (spec/41_alu8.md section 2): A becomes
`res A v carry` and F `fl A v carry`, and nothing else changes. -/
def AluForms (op : AluOp) (res : Byte → Byte → Byte → Byte) (fl : Byte → Byte → Byte → Flags) : Prop :=
  ∀ s : State,
    (∀ r, exec (Instr.mkAlu op (.reg r)) s = .next
      { s with regs := s.regs.set .a (res s.regs.a (s.regs.get r) s.carryByte),
               flags := fl s.regs.a (s.regs.get r) s.carryByte, stepCycles := s.stepCycles + 1 }) ∧
    (∀ v, s.read8 s.hl = some v → exec (Instr.mkAlu op .atHL) s = .next
      { s with regs := s.regs.set .a (res s.regs.a v s.carryByte),
               flags := fl s.regs.a v s.carryByte, stepCycles := s.stepCycles + 2 }) ∧
    (s.read8 s.hl = none → exec (Instr.mkAlu op .atHL) s = s.stopsAt s.hl .read) ∧
    (∀ n, exec (Instr.mkAluImm op n) s = .next
      { s with regs := s.regs.set .a (res s.regs.a n s.carryByte),
               flags := fl s.regs.a n s.carryByte, stepCycles := s.stepCycles + 2 })

/-- Two packed decimal digits. -/
def bcd (x : Nat) : Byte := .ofNat 8 (16 * (x / 10) + x % 10)

end Machine

end Sys2Proof
end

