-- ==== Sys2Proof/Certificates/Slice0/Obligations.lean ====
section
/-! DEFINITION. The statements for the provers. A docstring names the rules of spec/ a statement
formalises; the log entry is named where a clause rests on a choice of the model. -/

section

open Sys2Proof Sys2Proof.Machine

/-! ### Encoding -/

/-- Decoding the encoding of a whole instruction, whatever bytes follow it, gives the instruction back
and leaves the bytes that follow (R130, R131, R137). -/
def Obligations.DecodeReadsBackEncoding : Prop :=
  ∀ (i : Instr) (rest : List Byte), i.WellFormed = true → decode (encode i ++ rest) = .ok (i, rest)

/-- Three bytes always hold a whole instruction, and its encoding is exactly the bytes it took: no bit of
an encoding is dropped. STOP is left out, whose second byte has no meaning (R140, R143). -/
def Obligations.EveryOpcodeByteDecodes : Prop :=
  ∀ op b1 b2 : Byte, op ≠ 0x10 → ∃ i rest,
    decode [op, b1, b2] = .ok (i, rest) ∧ i.WellFormed = true ∧ encode i ++ rest = [op, b1, b2]

/-- Every row with an operand field, from the field's value (R133 to R136, R138; the opcode patterns of
the instruction rules). -/
def Obligations.EncodingsFollowTheFields : Prop :=
  (∀ d o : Operand8, encode (Instr.mkLoad d o) = [0x40 + 8 * d.field + o.field]) ∧
  (∀ (d : Operand8) (n : Byte), encode (Instr.mkLoadImm d n) = [0x06 + 8 * d.field, n]) ∧
  (∀ (op : AluOp) (o : Operand8), encode (Instr.mkAlu op o) = [0x80 + 8 * op.field + o.field]) ∧
  (∀ (op : AluOp) (n : Byte), encode (Instr.mkAluImm op n) = [0xC6 + 8 * op.field, n]) ∧
  (∀ d : Operand8, encode (Instr.mkInc8 d) = [0x04 + 8 * d.field]) ∧
  (∀ d : Operand8, encode (Instr.mkDec8 d) = [0x05 + 8 * d.field]) ∧
  (∀ (p : Pair) (n : Word), encode (Instr.mkLoadPair p n) = [0x01 + 16 * p.field, lo8 n, hi8 n]) ∧
  (∀ p : Pair, encode (Instr.mkAddHL p) = [0x09 + 16 * p.field]) ∧
  (∀ p : Pair, encode (Instr.mkInc16 p) = [0x03 + 16 * p.field]) ∧
  (∀ p : Pair, encode (Instr.mkDec16 p) = [0x0B + 16 * p.field]) ∧
  (∀ p : StackPair, encode (Instr.mkPush p) = [0xC5 + 16 * p.field]) ∧
  (∀ p : StackPair, encode (Instr.mkPop p) = [0xC1 + 16 * p.field]) ∧
  ([encode .ldAtBC_A, encode .ldAtDE_A, encode .ldHLI_A, encode .ldHLD_A,
      encode .ldA_atBC, encode .ldA_atDE, encode .ldA_HLI, encode .ldA_HLD] =
    [[0x02], [0x12], [0x22], [0x32], [0x0A], [0x1A], [0x2A], [0x3A]]) ∧
  (∀ (q : Cond) (e : Byte), encode (Instr.mkJrIf q e) = [0x20 + 8 * q.field, e]) ∧
  (∀ (q : Cond) (a : Word), encode (Instr.mkJpIf q a) = [0xC2 + 8 * q.field, lo8 a, hi8 a]) ∧
  (∀ (q : Cond) (a : Word), encode (Instr.mkCallIf q a) = [0xC4 + 8 * q.field, lo8 a, hi8 a]) ∧
  (∀ q : Cond, encode (Instr.mkRetIf q) = [0xC0 + 8 * q.field]) ∧
  (∀ t : BitVec 3, encode (Instr.mkRst t) = [0xC7 + 8 * t.setWidth 8]) ∧
  (∀ (op : ShiftOp) (o : Operand8), encode (Instr.mkShift op o) = [0xCB, 8 * op.field + o.field]) ∧
  (∀ (b : BitVec 3) (o : Operand8),
    encode (Instr.mkBit b o) = [0xCB, 0x40 + 8 * b.setWidth 8 + o.field] ∧
    encode (Instr.mkRes b o) = [0xCB, 0x80 + 8 * b.setWidth 8 + o.field] ∧
    encode (Instr.mkSet b o) = [0xCB, 0xC0 + 8 * b.setWidth 8 + o.field])

/-- A few words of spec/95_test_vectors.md decode to the instructions they stand for. -/
def Obligations.VectorWordsDecode : Prop :=
  decode [0x01, 0x34, 0x12] = .ok (.ldBC_n16 0x1234, []) ∧
  decode [0x41] = .ok (.ldB_C, []) ∧
  decode [0x36, 0x99] = .ok (.ldAtHL_n8 0x99, []) ∧
  decode [0xFA, 0x34, 0xD2] = .ok (.ldA_a16 0xD234, []) ∧
  decode [0xE0, 0x80] = .ok (.ldhA8_A 0x80, []) ∧
  decode [0x9F] = .ok (.sbc_A, []) ∧
  decode [0xF8, 0x01] = .ok (.ldHL_SPe8 0x01, []) ∧
  decode [0xCB, 0x1E] = .ok (.rr_atHL, []) ∧
  decode [0xCB, 0x7C] = .ok (.bit7_H, []) ∧
  decode [0x18, 0xFE] = .ok (.jr 0xFE, []) ∧
  decode [0xCC, 0x00, 0xD0] = .ok (.callZ 0xD000, []) ∧
  decode [0x76] = .ok (.halt, []) ∧
  decode [0xDD] = .ok (.illegalDD, [])

/-! ### The step -/

/-- A step runs the decoded instruction: where the bytes at PC are those of a whole instruction, fetch,
decode and execution are `exec` on the state with PC past them, and the step of a CPU that can run and
takes no interrupt is that, on the state with `halted` cleared (R380, R470). `pc0` and `stepCycles` are
the model's own (log 7). -/
def Obligations.StepRunsDecodedInstruction : Prop :=
  (∀ (s : State) (i : Instr), i.WellFormed = true →
    (∀ k < i.fetchedBytes, s.read8 (s.pc + .ofNat 16 k) = (encode i)[k]?) →
    s.runInstr = endResult (exec i { s with pc := s.pc + .ofNat 16 i.fetchedBytes })) ∧
  (∀ s : State, s.fault = none → s.refused = none → ¬(s.halted = true ∧ s.pend = 0) →
    ¬(s.ime = true ∧ s.pend ≠ 0) →
    step s = payTicks ({ s with halted := false, pc0 := s.pc, stepCycles := 0 } : State).runInstr)

/-- A fetch of a byte no mapping contains stops the instruction at that byte, with PC at it (R13, R89,
R361, R362). -/
def Obligations.UnmappedFetchStops : Prop :=
  ∀ (s : State) (i : Instr) (k : Nat), i.WellFormed = true → k < i.fetchedBytes →
    (∀ j < k, s.read8 (s.pc + .ofNat 16 j) = (encode i)[j]?) →
    s.read8 (s.pc + .ofNat 16 k) = none →
    s.runInstr = ({ s with pc := s.pc + .ofNat 16 k } : State).stopsAt (s.pc + .ofNat 16 k) .fetch

/-- A step with IME = 1 and a pending enabled source dispatches: it wakes the CPU, clears IME and the
source's IF bit, pushes PC, goes to the vector and there runs an instruction, with 5 M-cycles counted; a
push stops at the first byte or at the second with IME and the bit already cleared, and a push onto 0xFF46
or 0xFF50 is a bus write with its hook (R381, R362, R95, R96, R386, R390, R484). -/
def Obligations.StepDispatchesInterrupt : Prop :=
  ∀ s : State, s.fault = none → s.refused = none → s.ime = true → s.pend ≠ 0 →
    s.map.lookup 0xFF0F = some (io 0xFF0F .iflag) →
    let i := firstSource s.pend
    let s1 : State := { s with
      halted := false, pc0 := s.pc, stepCycles := 0, ime := false,
      io := { s.io with iflag := s.io.iflag &&& ~~~ (1#8 <<< i.bit) } }
    (∀ m m', s.map.lookup (s.sp - 1).toNat = some m → s.map.lookup (s.sp - 2).toNat = some m' →
      hooked (s.sp - 1) = false → hooked (s.sp - 2) = false →
      s.cpuStep = State.runInstr
        { (s1.stored m (s.sp - 1) (hi8 s.pc)).stored m' (s.sp - 2) (lo8 s.pc) with
          sp := s.sp - 2, pc := i.vector, stepCycles := 5 }) ∧
    (∀ t u, ({ s1 with sp := s.sp - 1 } : State).write8 (s.sp - 1) (hi8 s.pc) = .ok t →
      ({ t with sp := s.sp - 2 } : State).write8 (s.sp - 2) (lo8 s.pc) = .ok u →
      s.cpuStep = State.runInstr { u with pc := i.vector, stepCycles := 5 }) ∧
    (s.map.lookup (s.sp - 1).toNat = none →
      s.cpuStep = ({ s1 with sp := s.sp - 1 } : State).stopsAt (s.sp - 1) .write) ∧
    (∀ m, s.map.lookup (s.sp - 1).toNat = some m → hooked (s.sp - 1) = false →
      s.map.lookup (s.sp - 2).toNat = none →
      s.cpuStep = ({ s1.stored m (s.sp - 1) (hi8 s.pc) with sp := s.sp - 2 } : State).stopsAt (s.sp - 2)
        .write) ∧
    (∀ f, ({ s1 with sp := s.sp - 1 } : State).write8 (s.sp - 1) (hi8 s.pc) = .error f →
      s.cpuStep = .fault f) ∧
    (∀ t f, ({ s1 with sp := s.sp - 1 } : State).write8 (s.sp - 1) (hi8 s.pc) = .ok t →
      ({ t with sp := s.sp - 2 } : State).write8 (s.sp - 2) (lo8 s.pc) = .error f → s.cpuStep = .fault f)

/-- A request sets its source's bit of IF whatever IE and IME are; the pending enabled sources, which of
them is taken, and where each goes (R42, R370, R371, R383, R384). -/
def Obligations.PriorityAndVectors : Prop :=
  (∀ (s : State) (i : Source),
    s.request i = { s with io := { s.io with iflag := s.io.iflag ||| 1#8 <<< i.bit } } ∧
    (s.request i).io.iflag.getLsbD i.bit = true ∧ (s.request i).request i = s.request i) ∧
  (∀ (s : State) (i : Source), s.pend.getLsbD i.bit = (s.io.ie.getLsbD i.bit && s.io.iflag.getLsbD i.bit)) ∧
  (∀ s : State, s.pend ≠ 0 →
    s.pend.getLsbD (firstSource s.pend).bit = true ∧
    ∀ i : Source, i.bit < (firstSource s.pend).bit → s.pend.getLsbD i.bit = false) ∧
  (Source.vblank.bit = 0 ∧ Source.lcdStat.bit = 1 ∧ Source.timer.bit = 2 ∧ Source.serial.bit = 3 ∧
    Source.joypad.bit = 4) ∧
  (Source.vblank.vector = 0x0040 ∧ Source.lcdStat.vector = 0x0048 ∧ Source.timer.vector = 0x0050 ∧
    Source.serial.vector = 0x0058 ∧ Source.joypad.vector = 0x0060)

/-- A halted CPU with nothing pending and enabled idles for one M-cycle; with something pending, whatever
IME is, its step is that of the same CPU awake (R382). `stepCycles` is the model's own (log 7). -/
def Obligations.HaltedStepIdlesOrWakes : Prop :=
  ∀ s : State, s.fault = none → s.refused = none → s.halted = true →
    (s.pend = 0 →
      step s = .next (({ s with cyclesTotal := s.cyclesTotal + 1, stepCycles := 1 } : State).ticks 4)) ∧
    (s.pend ≠ 0 → step s = step { s with halted := false })

/-- The end of a step that executed an instruction counts an armed EI down, and IME becomes 1 when the
count reaches 0 (R385); the cycle total grows by the step's count (R380). -/
def Obligations.EndOfStepCountsEi : Prop :=
  ∀ t : State,
    (t.eiDelay = 0 → endResult (.next t) = .next { t with cyclesTotal := t.cyclesTotal + t.stepCycles }) ∧
    (t.eiDelay = 1 → endResult (.next t) =
      .next { t with eiDelay := 0, ime := true, cyclesTotal := t.cyclesTotal + t.stepCycles }) ∧
    (∀ n, t.eiDelay = n + 2 → endResult (.next t) =
      .next { t with eiDelay := n + 1, cyclesTotal := t.cyclesTotal + t.stepCycles })

/-- A step is a CPU step and then 4 PPU ticks for each M-cycle of it, none after a fault or a refusal; the
cycle total grows by what the step counted, at least 1 (R470, R361, R364, R40, R386). -/
def Obligations.StepPaysFourTicksPerCycle : Prop :=
  ∀ s : State,
    (∀ t, s.cpuStep = .next t → step s = .next (t.ticks (4 * t.stepCycles))) ∧
    (∀ f, s.cpuStep = .fault f → step s = .fault f) ∧
    (∀ r, s.cpuStep = .refused r → step s = .refused r) ∧
    (∀ t, step s = .next t →
      t.cyclesTotal = s.cyclesTotal + t.stepCycles ∧ 1 ≤ t.stepCycles ∧ t.stepCycles ≤ 11)

/-- A step that faults or is refused marks its state, and every later step answers the same and changes
nothing (R39, R361, R364). The state a fault or a refusal leaves is its second part (log 8). -/
def Obligations.FaultAndRefusalAreTerminal : Prop :=
  (∀ (s t : State) (e : FatalError), step s = .fault (.fatal e t) →
    t.fault = some e ∧ step t = .fault (.fatal e t)) ∧
  (∀ s t : State, step s = .refused (.stop t) →
    t.refused = some .stop ∧ step t = .refused (.stop t))

/-- The only stops of a state that can step: an access that finds no mapping, an illegal opcode, STOP.
None of them moves the PPU's own state or the cycle total (R360, R361, R362, R364). -/
def Obligations.StepStopsOnlyByRule : Prop :=
  ∀ s : State, s.Inv →
    (∀ e t, step s = .fault (.fatal e t) →
      t.ppu = s.ppu ∧ t.cyclesTotal = s.cyclesTotal ∧
      ((∃ a access, e = .unmapped a access s.pc) ∨
        (∃ op a, e = .illegalOpcode op a ∧ t.read8 a = some op ∧ t.pc = a + 1 ∧
          op ∈ [0xD3, 0xDB, 0xDD, 0xE3, 0xE4, 0xEB, 0xEC, 0xED, 0xF4, 0xFC, 0xFD]))) ∧
    (∀ r, step s = .refused r → ∃ t, r = .stop t ∧
      t.ppu = s.ppu ∧ t.cyclesTotal = s.cyclesTotal ∧ t.regs = s.regs ∧ t.flags = s.flags ∧
      t.read8 (t.pc - 1) = some 0x10)

/-- IME goes from 0 to 1 only by RETI or at the end of an armed EI's count, and from 1 to 0 only by a
dispatch or DI (R36). -/
def Obligations.ImeChangesOnlyByRule : Prop :=
  ∀ s t : State, step s = .next t →
    (s.ime = false → t.ime = true → s.eiDelay = 1 ∨ s.read8 s.pc = some 0xD9) ∧
    (s.ime = true → t.ime = false → s.pend ≠ 0 ∨ s.read8 s.pc = some 0xF3)

/-! ### Loads, stores and stack transfers -/

/-- `LD r, r'` and `LD r, n8` (R162, R163). -/
def Obligations.RegisterLoads : Prop :=
  ∀ s : State,
    (∀ r r' : Reg8, exec (Instr.mkLoad (.reg r) (.reg r')) s =
      .next { s with regs := s.regs.set r (s.regs.get r'), stepCycles := s.stepCycles + 1 }) ∧
    (∀ (r : Reg8) (n : Byte), exec (Instr.mkLoadImm (.reg r) n) s =
      .next { s with regs := s.regs.set r n, stepCycles := s.stepCycles + 2 })

/-- `LD r, (HL)`, A from (BC), (DE), (a16) and the high page (R164, R167, R168, R171, R173, R175). -/
def Obligations.ByteLoads : Prop :=
  ∀ s : State,
    (∀ r : Reg8, LoadsByte (Instr.mkLoad (.reg r) .atHL) s r s.hl 2) ∧
    LoadsByte .ldA_atBC s .a s.bc 2 ∧
    LoadsByte .ldA_atDE s .a s.de 2 ∧
    (∀ a : Word, LoadsByte (.ldA_a16 a) s .a a 4) ∧
    LoadsByte .ldhA_atC s .a (0xFF00 + s.regs.c.setWidth 16) 2 ∧
    (∀ n : Byte, LoadsByte (.ldhA_a8 n) s .a (0xFF00 + n.setWidth 16) 3)

/-- `LD (HL), r`, `LD (HL), n8`, A to (BC), (DE), (a16) and the high page (R165, R166, R169, R170, R172,
R174, R176). -/
def Obligations.ByteStores : Prop :=
  ∀ s : State,
    (∀ r : Reg8, StoresByte (Instr.mkLoad .atHL (.reg r)) s s.hl (s.regs.get r) 2) ∧
    (∀ n : Byte, StoresByte (.ldAtHL_n8 n) s s.hl n 3) ∧
    StoresByte .ldAtBC_A s s.bc s.regs.a 2 ∧
    StoresByte .ldAtDE_A s s.de s.regs.a 2 ∧
    (∀ a : Word, StoresByte (.ldA16_A a) s a s.regs.a 4) ∧
    StoresByte .ldhAtC_A s (0xFF00 + s.regs.c.setWidth 16) s.regs.a 2 ∧
    (∀ n : Byte, StoresByte (.ldhA8_A n) s (0xFF00 + n.setWidth 16) s.regs.a 3)

/-- A through HL with a post-increment or post-decrement, which wraps and changes no flag; HL does not
move where the access stops (R177 to R180). -/
def Obligations.SteppingLoadsAndStores : Prop :=
  ∀ (s : State) (i : Instr) (w : Word),
    ((i = .ldA_HLI ∧ w = s.hl + 1) ∨ (i = .ldA_HLD ∧ w = s.hl - 1) →
      (∀ v, s.read8 s.hl = some v → exec i s = .next
        { s with regs := { s.regs with a := v, h := hi8 w, l := lo8 w },
                 stepCycles := s.stepCycles + 2 }) ∧
      (s.read8 s.hl = none → exec i s = s.stopsAt s.hl .read)) ∧
    ((i = .ldHLI_A ∧ w = s.hl + 1) ∨ (i = .ldHLD_A ∧ w = s.hl - 1) →
      (∀ m, s.map.lookup s.hl.toNat = some m → hooked s.hl = false → exec i s = .next
        { s.stored m s.hl s.regs.a with
          regs := { s.regs with h := hi8 w, l := lo8 w }, stepCycles := s.stepCycles + 2 }) ∧
      (∀ t, s.write8 s.hl s.regs.a = .ok t → exec i s = .next
        { t with regs := { s.regs with h := hi8 w, l := lo8 w }, stepCycles := s.stepCycles + 2 }) ∧
      (∀ f, s.write8 s.hl s.regs.a = .error f → exec i s = .fault f) ∧
      (s.map.lookup s.hl.toNat = none → exec i s = s.stopsAt s.hl .write))

/-- `LD rr, n16`, `LD SP, HL` and `LD (a16), SP`, which stores the low byte first and at a16 + 1 mod 2^16
the high byte (R181, R182, R183). -/
def Obligations.SixteenBitLoads : Prop :=
  ∀ s : State,
    (∀ n : Word,
      exec (.ldBC_n16 n) s = .next
        { s with regs := { s.regs with b := hi8 n, c := lo8 n }, stepCycles := s.stepCycles + 3 } ∧
      exec (.ldDE_n16 n) s = .next
        { s with regs := { s.regs with d := hi8 n, e := lo8 n }, stepCycles := s.stepCycles + 3 } ∧
      exec (.ldHL_n16 n) s = .next
        { s with regs := { s.regs with h := hi8 n, l := lo8 n }, stepCycles := s.stepCycles + 3 } ∧
      exec (.ldSP_n16 n) s = .next { s with sp := n, stepCycles := s.stepCycles + 3 }) ∧
    exec .ldSP_HL s = .next { s with sp := s.regs.h ++ s.regs.l, stepCycles := s.stepCycles + 2 } ∧
    (∀ a : Word,
      (∀ m m', s.map.lookup a.toNat = some m → s.map.lookup (a + 1).toNat = some m' →
        hooked a = false → hooked (a + 1) = false → exec (.ldA16_SP a) s = .next
          { (s.stored m a (lo8 s.sp)).stored m' (a + 1) (hi8 s.sp) with
            stepCycles := s.stepCycles + 5 }) ∧
      (∀ t u, s.write8 a (lo8 s.sp) = .ok t → t.write8 (a + 1) (hi8 s.sp) = .ok u →
        exec (.ldA16_SP a) s = .next { u with stepCycles := s.stepCycles + 5 }) ∧
      (∀ f, s.write8 a (lo8 s.sp) = .error f → exec (.ldA16_SP a) s = .fault f) ∧
      (∀ t f, s.write8 a (lo8 s.sp) = .ok t → t.write8 (a + 1) (hi8 s.sp) = .error f →
        exec (.ldA16_SP a) s = .fault f) ∧
      (s.map.lookup a.toNat = none → exec (.ldA16_SP a) s = s.stopsAt a .write) ∧
      (∀ m, s.map.lookup a.toNat = some m → hooked a = false → s.map.lookup (a + 1).toNat = none →
        exec (.ldA16_SP a) s = (s.stored m a (lo8 s.sp)).stopsAt (a + 1) .write))

/-- `PUSH rr` and `POP rr`; POP AF drops bits 3..0 of the popped byte, and the F that PUSH AF reads has the
flags in bits 7..4 and 0 in bits 3..0 (R32, R160, R161, R184, R185, R186). -/
def Obligations.StackTransfers : Prop :=
  ∀ s : State,
    Pushes .pushBC s (s.regs.b ++ s.regs.c) s.pc 4 ∧
    Pushes .pushDE s (s.regs.d ++ s.regs.e) s.pc 4 ∧
    Pushes .pushHL s (s.regs.h ++ s.regs.l) s.pc 4 ∧
    Pushes .pushAF s (s.regs.a ++ s.f) s.pc 4 ∧
    Pops .popBC s (fun v =>
      { s with regs := { s.regs with b := hi8 v, c := lo8 v }, stepCycles := s.stepCycles + 3 }) ∧
    Pops .popDE s (fun v =>
      { s with regs := { s.regs with d := hi8 v, e := lo8 v }, stepCycles := s.stepCycles + 3 }) ∧
    Pops .popHL s (fun v =>
      { s with regs := { s.regs with h := hi8 v, l := lo8 v }, stepCycles := s.stepCycles + 3 }) ∧
    Pops .popAF s (fun v =>
      { s with
        regs := { s.regs with a := hi8 v },
        flags := ⟨v.getLsbD 7, v.getLsbD 6, v.getLsbD 5, v.getLsbD 4⟩,
        stepCycles := s.stepCycles + 3 }) ∧
    (s.f.getLsbD 7 = s.flags.z ∧ s.f.getLsbD 6 = s.flags.n ∧ s.f.getLsbD 5 = s.flags.h ∧
      s.f.getLsbD 4 = s.flags.c ∧ s.f.extractLsb' 0 4 = 0)

/-! ### 8-bit arithmetic and logic -/

/-- ADD and ADC in their three forms (R201, R206 to R211). -/
def Obligations.AddAndAdc : Prop :=
  AluForms .add (fun a v _ => a + v) (fun a v _ => addFlags a v 0) ∧
  AluForms .adc (fun a v c => a + v + c) addFlags

/-- SUB, SBC and CP in their three forms; CP keeps A (R202, R212 to R217, R227 to R229). -/
def Obligations.SubSbcAndCp : Prop :=
  AluForms .sub (fun a v _ => a - v) (fun a v _ => subFlags a v 0) ∧
  AluForms .sbc (fun a v c => a - v - c) subFlags ∧
  AluForms .cp (fun a _ _ => a) (fun a v _ => subFlags a v 0)

/-- AND, XOR and OR in their three forms (R203 to R205, R218 to R226). -/
def Obligations.LogicOperations : Prop :=
  AluForms .and (fun a v _ => a &&& v) (fun a v _ => ⟨decide (a &&& v = 0), false, true, false⟩) ∧
  AluForms .xor (fun a v _ => a ^^^ v) (fun a v _ => ⟨decide (a ^^^ v = 0), false, false, false⟩) ∧
  AluForms .or (fun a v _ => a ||| v) (fun a v _ => ⟨decide (a ||| v = 0), false, false, false⟩)

/-- INC and DEC of a register and of the byte at HL: C is never touched (R230 to R233). -/
def Obligations.IncrementAndDecrement : Prop :=
  ∀ s : State,
    (∀ r : Reg8, exec (Instr.mkInc8 (.reg r)) s = .next
      { s with
        regs := s.regs.set r (s.regs.get r + 1),
        flags := { s.flags with
          z := decide (s.regs.get r + 1 = 0), n := false, h := decide ((s.regs.get r).extractLsb' 0 4 = 0xF) },
        stepCycles := s.stepCycles + 1 }) ∧
    (∀ r : Reg8, exec (Instr.mkDec8 (.reg r)) s = .next
      { s with
        regs := s.regs.set r (s.regs.get r - 1),
        flags := { s.flags with
          z := decide (s.regs.get r - 1 = 0), n := true, h := decide ((s.regs.get r).extractLsb' 0 4 = 0x0) },
        stepCycles := s.stepCycles + 1 }) ∧
    ModifiesHL .incAtHL s (fun v => v + 1)
      (fun v => { s.flags with z := decide (v + 1 = 0), n := false, h := decide (v.extractLsb' 0 4 = 0xF) }) 3 ∧
    ModifiesHL .decAtHL s (fun v => v - 1)
      (fun v => { s.flags with z := decide (v - 1 = 0), n := true, h := decide (v.extractLsb' 0 4 = 0x0) }) 3

/-- DAA, every test on A, H and C as they were before; CPL, SCF and CCF (R234 to R237). -/
def Obligations.AccumulatorAdjustments : Prop :=
  ∀ s : State,
    (s.flags.n = false →
      let high : Bool := s.flags.c || decide (0x99 < s.regs.a.toNat)
      let low : Bool := s.flags.h || decide (9 < s.regs.a.toNat % 16)
      let a : Byte := s.regs.a + (if high then 0x60 else 0x00) + (if low then 0x06 else 0x00)
      exec .daa s = .next
        { s with regs := { s.regs with a := a },
                 flags := { s.flags with z := decide (a = 0), h := false, c := high },
                 stepCycles := s.stepCycles + 1 }) ∧
    (s.flags.n = true →
      let a : Byte := s.regs.a - (if s.flags.c then 0x60 else 0x00) - (if s.flags.h then 0x06 else 0x00)
      exec .daa s = .next
        { s with regs := { s.regs with a := a },
                 flags := { s.flags with z := decide (a = 0), h := false },
                 stepCycles := s.stepCycles + 1 }) ∧
    exec .cpl s = .next
      { s with regs := { s.regs with a := s.regs.a ^^^ 0xFF },
               flags := { s.flags with n := true, h := true }, stepCycles := s.stepCycles + 1 } ∧
    exec .scf s = .next
      { s with flags := { s.flags with n := false, h := false, c := true },
               stepCycles := s.stepCycles + 1 } ∧
    exec .ccf s = .next
      { s with flags := { s.flags with n := false, h := false, c := !s.flags.c },
               stepCycles := s.stepCycles + 1 }

/-- After ADD or SUB of two packed decimal bytes, DAA leaves the packed decimal sum or difference mod 100,
and C says whether it left the range (rests on R206, R212 and R234). -/
def Obligations.DaaGivesDecimalResult : Prop :=
  ∀ (s : State) (x y : Nat), x < 100 → y < 100 → s.regs.a = bcd x → s.regs.b = bcd y →
    (∃ t u, exec .add_B s = .next t ∧ exec .daa t = .next u ∧
      u.regs.a = bcd ((x + y) % 100) ∧ u.flags.c = decide (100 ≤ x + y)) ∧
    (∃ t u, exec .sub_B s = .next t ∧ exec .daa t = .next u ∧
      u.regs.a = bcd ((100 + x - y) % 100) ∧ u.flags.c = decide (x < y))

/-! ### 16-bit arithmetic -/

/-- `ADD HL, rr`: H from bit 11, C from bit 15, Z kept. `INC rr` and `DEC rr`: no flag changes. `ADD SP, e8`
and `LD HL, SP+e8`: the sum is signed, H and C are the carries of the unsigned sum of the low bytes, Z and
N are 0 (R250 to R255). -/
def Obligations.SixteenBitArithmetic : Prop :=
  ∀ s : State,
    (∀ p : Pair,
      let sum : Word := s.hl + s.pair p
      exec (Instr.mkAddHL p) s = .next
        { s with
          regs := { s.regs with h := hi8 sum, l := lo8 sum },
          flags := { s.flags with
            n := false, h := decide (0x1000 ≤ s.hl.toNat % 0x1000 + (s.pair p).toNat % 0x1000),
            c := decide (0x10000 ≤ s.hl.toNat + (s.pair p).toNat) },
          stepCycles := s.stepCycles + 2 }) ∧
    (∀ (up : Bool) (d : Word), d = (if up then 1 else -1) →
      exec (if up then .incBC else .decBC) s = .next
        { s with regs := { s.regs with b := hi8 (s.bc + d), c := lo8 (s.bc + d) },
                 stepCycles := s.stepCycles + 2 } ∧
      exec (if up then .incDE else .decDE) s = .next
        { s with regs := { s.regs with d := hi8 (s.de + d), e := lo8 (s.de + d) },
                 stepCycles := s.stepCycles + 2 } ∧
      exec (if up then .incHL else .decHL) s = .next
        { s with regs := { s.regs with h := hi8 (s.hl + d), l := lo8 (s.hl + d) },
                 stepCycles := s.stepCycles + 2 } ∧
      exec (if up then .incSP else .decSP) s = .next
        { s with sp := s.sp + d, stepCycles := s.stepCycles + 2 }) ∧
    (∀ e : Byte,
      let sum : Word := .ofInt 16 ((s.sp.toNat : Int) + e.toInt)
      let fl : Flags := ⟨false, false, decide (16 ≤ s.sp.toNat % 16 + e.toNat % 16),
        decide (256 ≤ s.sp.toNat % 256 + e.toNat)⟩
      exec (.addSP_e8 e) s = .next { s with sp := sum, flags := fl, stepCycles := s.stepCycles + 4 } ∧
      exec (.ldHL_SPe8 e) s = .next
        { s with regs := { s.regs with h := hi8 sum, l := lo8 sum }, flags := fl,
                 stepCycles := s.stepCycles + 3 })

/-! ### Rotates, shifts and bits -/

/-- RLCA, RRCA, RLA and RRA: Z is 0 whatever the result is (R270 to R273). -/
def Obligations.AccumulatorRotates : Prop :=
  ∀ (s : State) (i : Instr) (op : ShiftOp),
    (i, op) ∈ [(.rlca, .rlc), (.rrca, .rrc), (.rla, .rl), (.rra, .rr)] →
    exec i s = .next
      { s with regs := { s.regs with a := shifted op s.regs.a s.carryByte },
               flags := ⟨false, false, false, shiftedOut op s.regs.a⟩, stepCycles := s.stepCycles + 1 }

/-- The CB rotates and shifts of a register (R275, R277, R279, R281, R283, R285, R287, R289). -/
def Obligations.RegisterShifts : Prop :=
  ∀ (s : State) (op : ShiftOp) (r : Reg8),
    let v := s.regs.get r
    let w := shifted op v s.carryByte
    exec (Instr.mkShift op (.reg r)) s = .next
      { s with regs := s.regs.set r w, flags := ⟨decide (w = 0), false, false, shiftedOut op v⟩,
               stepCycles := s.stepCycles + 2 }

/-- The CB rotates and shifts of the byte at HL: the flags are set before the write (R274, R276, R278,
R280, R282, R284, R286, R288, R290). -/
def Obligations.MemoryShifts : Prop :=
  ∀ (s : State) (op : ShiftOp),
    ModifiesHL (Instr.mkShift op .atHL) s (fun v => shifted op v s.carryByte)
      (fun v => ⟨decide (shifted op v s.carryByte = 0), false, false, shiftedOut op v⟩) 4

/-- BIT on a register and on the byte at HL, which is not written back (R291, R292). -/
def Obligations.BitTests : Prop :=
  ∀ (s : State) (b : BitVec 3),
    (∀ r : Reg8, exec (Instr.mkBit b (.reg r)) s = .next
      { s with
        flags := { s.flags with z := decide (s.regs.get r &&& 1#8 <<< b.toNat = 0), n := false, h := true },
        stepCycles := s.stepCycles + 2 }) ∧
    (∀ v, s.read8 s.hl = some v → exec (Instr.mkBit b .atHL) s = .next
      { s with
        flags := { s.flags with z := decide (v &&& 1#8 <<< b.toNat = 0), n := false, h := true },
        stepCycles := s.stepCycles + 3 }) ∧
    (s.read8 s.hl = none → exec (Instr.mkBit b .atHL) s = s.stopsAt s.hl .read)

/-- RES and SET on a register and on the byte at HL: no flag changes (R293 to R296). -/
def Obligations.BitResetsAndSets : Prop :=
  ∀ (s : State) (b : BitVec 3),
    (∀ r : Reg8, exec (Instr.mkRes b (.reg r)) s = .next
      { s with regs := s.regs.set r (s.regs.get r &&& ~~~ (1#8 <<< b.toNat)),
               stepCycles := s.stepCycles + 2 }) ∧
    (∀ r : Reg8, exec (Instr.mkSet b (.reg r)) s = .next
      { s with regs := s.regs.set r (s.regs.get r ||| 1#8 <<< b.toNat),
               stepCycles := s.stepCycles + 2 }) ∧
    ModifiesHL (Instr.mkRes b .atHL) s (fun v => v &&& ~~~ (1#8 <<< b.toNat)) (fun _ => s.flags) 4 ∧
    ModifiesHL (Instr.mkSet b .atHL) s (fun v => v ||| 1#8 <<< b.toNat) (fun _ => s.flags) 4

/-! ### Control transfers -/

/-- The absolute and relative jumps; the offset is added to the address of the next instruction (R311 to
R315). -/
def Obligations.Jumps : Prop :=
  ∀ s : State,
    (∀ a : Word, exec (.jp a) s = .next { s with pc := a, stepCycles := s.stepCycles + 4 }) ∧
    (∀ (q : Cond) (a : Word), exec (Instr.mkJpIf q a) s = .next
      (if condHolds (some q) s then { s with pc := a, stepCycles := s.stepCycles + 4 }
        else { s with stepCycles := s.stepCycles + 3 })) ∧
    exec .jpHL s = .next { s with pc := s.regs.h ++ s.regs.l, stepCycles := s.stepCycles + 1 } ∧
    (∀ e : Byte, exec (.jr e) s = .next
      { s with pc := .ofInt 16 ((s.pc.toNat : Int) + e.toInt), stepCycles := s.stepCycles + 3 }) ∧
    (∀ (q : Cond) (e : Byte), exec (Instr.mkJrIf q e) s = .next
      (if condHolds (some q) s then
        { s with pc := .ofInt 16 ((s.pc.toNat : Int) + e.toInt), stepCycles := s.stepCycles + 3 }
        else { s with stepCycles := s.stepCycles + 2 }))

/-- CALL, CALL cc and RST: the pushed value is the address of the next instruction; a call that is not
taken touches neither the stack nor SP (R316, R317, R321). -/
def Obligations.CallsAndRestarts : Prop :=
  ∀ s : State,
    (∀ a : Word, Pushes (.call a) s s.pc a 6) ∧
    (∀ (q : Cond) (a : Word), condHolds (some q) s = true → Pushes (Instr.mkCallIf q a) s s.pc a 6) ∧
    (∀ (q : Cond) (a : Word), condHolds (some q) s = false →
      exec (Instr.mkCallIf q a) s = .next { s with stepCycles := s.stepCycles + 3 }) ∧
    (∀ t : BitVec 3, Pushes (Instr.mkRst t) s s.pc (.ofNat 16 (8 * t.toNat)) 4)

/-- RET, RET cc and RETI, which sets IME at once and cancels an armed EI; a pop that stops leaves IME as
it was (R318, R319, R320). -/
def Obligations.Returns : Prop :=
  ∀ s : State,
    Pops .ret s (fun v => { s with pc := v, stepCycles := s.stepCycles + 4 }) ∧
    (∀ q : Cond, condHolds (some q) s = true →
      Pops (Instr.mkRetIf q) s (fun v => { s with pc := v, stepCycles := s.stepCycles + 5 })) ∧
    (∀ q : Cond, condHolds (some q) s = false →
      exec (Instr.mkRetIf q) s = .next { s with stepCycles := s.stepCycles + 2 }) ∧
    Pops .reti s (fun v =>
      { s with pc := v, ime := true, eiDelay := 0, stepCycles := s.stepCycles + 4 })

/-! ### System instructions -/

/-- NOP, HALT, DI and EI, which arms the delay only with IME = 0 and no delay armed (R340, R341, R343,
R344). -/
def Obligations.SystemInstructions : Prop :=
  ∀ s : State,
    exec .nop s = .next { s with stepCycles := s.stepCycles + 1 } ∧
    exec .halt s = .next { s with halted := true, stepCycles := s.stepCycles + 1 } ∧
    exec .di s = .next { s with ime := false, eiDelay := 0, stepCycles := s.stepCycles + 1 } ∧
    (s.ime = false → s.eiDelay = 0 →
      exec .ei s = .next { s with eiDelay := 2, stepCycles := s.stepCycles + 1 }) ∧
    (s.ime = true ∨ s.eiDelay ≠ 0 → exec .ei s = .next { s with stepCycles := s.stepCycles + 1 })

/-- PREFIX CB fetches the next byte and runs the row of the CB table it selects, with that row's cycles
alone; it completes for every register form, and for every (HL) form where HL is mapped and no hook runs
(R345). -/
def Obligations.PrefixRunsCbRow : Prop :=
  ∀ s : State,
    (∀ c, s.read8 s.pc = some c →
      exec .prefixCb s = exec (decodeCb c) { s with pc := s.pc + 1 }) ∧
    (s.read8 s.pc = none → exec .prefixCb s = s.stopsAt s.pc .fetch) ∧
    (∀ c, s.read8 s.pc = some c → c.extractLsb' 0 3 ≠ 6 → ∃ t, exec .prefixCb s = .next t ∧
      t.pc = s.pc + 1 ∧ t.stepCycles = s.stepCycles + 2) ∧
    (∀ c m, s.read8 s.pc = some c → c.extractLsb' 0 3 = 6 → s.map.lookup s.hl.toNat = some m →
      hooked s.hl = false → ∃ t, exec .prefixCb s = .next t ∧
        t.pc = s.pc + 1 ∧ t.stepCycles = s.stepCycles + (if c.extractLsb' 6 2 = 1 then 3 else 4))

/-- The 11 illegal bytes stop the machine with the byte and its address, and STOP is refused; nothing else
changes (R342, R346). -/
def Obligations.IllegalBytesAndStop : Prop :=
  (∀ (s : State) (i : Instr) (op : Byte),
    (i, op) ∈ [(.illegalD3, 0xD3), (.illegalDB, 0xDB), (.illegalDD, 0xDD), (.illegalE3, 0xE3),
      (.illegalE4, 0xE4), (.illegalEB, 0xEB), (.illegalEC, 0xEC), (.illegalED, 0xED),
      (.illegalF4, 0xF4), (.illegalFC, 0xFC), (.illegalFD, 0xFD)] →
    encode i = [op] ∧
    exec i s = .fault (.fatal (.illegalOpcode op (s.pc - 1))
      { s with fault := some (.illegalOpcode op (s.pc - 1)) })) ∧
  (∀ s : State, exec .stop s = .refused (.stop { s with refused := some .stop }))

/-! ### What an instruction leaves alone -/

/-- An instruction that completes changes no flag but those its row of R33 lists. The row PREFIX CB, whose
flags are those of the CB row it runs, has a statement of its own (R33). -/
def Obligations.FlagFrame : Prop :=
  ∀ (i : Instr) (s t : State), i.WellFormed = true → exec i s = .next t →
    (i.shape.flagsWritten.z = false → t.flags.z = s.flags.z) ∧
    (i.shape.flagsWritten.n = false → t.flags.n = s.flags.n) ∧
    (i.shape.flagsWritten.h = false → t.flags.h = s.flags.h) ∧
    (i.shape.flagsWritten.c = false → t.flags.c = s.flags.c)

/-- An instruction that completes changes no general register but its destination (the halves of HL for
the stepping forms), SP only where R35 says so, PC only by a control transfer, IME and the EI delay only by
DI, EI and RETI, `halted` only by HALT, and never the PPU's own state, the marks or the cycle total
(R30, R34, R35, R36, R38). -/
def Obligations.RegisterFrame : Prop :=
  ∀ (i : Instr) (s t : State), i.WellFormed = true → exec i s = .next t →
    (∀ r : Reg8, r ∉ i.shape.regsWritten → t.regs.get r = s.regs.get r) ∧
    (i.shape.writesSp = false → t.sp = s.sp) ∧
    (i.shape.writesPc = false → t.pc = s.pc) ∧
    (i ≠ .di → i ≠ .ei → i ≠ .reti → t.ime = s.ime ∧ t.eiDelay = s.eiDelay) ∧
    (i ≠ .halt → t.halted = s.halted) ∧
    t.ppu = s.ppu ∧ t.fault = s.fault ∧ t.refused = s.refused ∧ t.cyclesTotal = s.cyclesTotal ∧
    t.stopRequested = s.stopRequested ∧ t.pc0 = s.pc0

/-- An instruction that completes changes no byte of the address space, registers there included, but
those it stores to; a store to 0xFF46 also writes OAM, and one to 0xFF50 can change 0x0000-0x00FF, the
map and `boot_mapped` (R85, R95, R96, R97). -/
def Obligations.MemoryFrame : Prop :=
  ∀ (i : Instr) (s t : State), i.WellFormed = true → s.mapOk = true → s.storageOk = true →
    exec i s = .next t →
    (∀ a : Word, a ∉ i.shape.stores s →
      (0xFF46 ∈ i.shape.stores s → ¬ inRange 0xFE00 0xFE9F a) →
      (0xFF50 ∈ i.shape.stores s → ¬ inRange 0x0000 0x00FF a) →
      t.read8 a = s.read8 a) ∧
    (0xFF50 ∉ i.shape.stores s → t.map = s.map ∧ t.bootMapped = s.bootMapped) ∧
    t.bootRom = s.bootRom

/-- An instruction that completes counts the M-cycles of the table of R491, the taken count exactly where
its condition holds (R386, R491). -/
def Obligations.CycleCounts : Prop :=
  ∀ (i : Instr) (s t : State), i.WellFormed = true → exec i s = .next t →
    t.stepCycles = s.stepCycles + i.shape.cycles s

/-! ### The bus -/

/-- What `read8` and `write8` answer: the byte of the mapping; a stop where there is none; nothing at all
for a read-only mapping; the byte stored where no hook runs (R84, R85, R89, R90). That a read of the host
that finds no mapping leaves `fault` set is the model's choice (log 20). -/
def Obligations.BusAccesses : Prop :=
  ∀ (s : State) (a : Word),
    (∀ m, s.map.lookup a.toNat = some m →
      s.read8 a = some (match m.store with
        | .memory | .platform => s.mem.read a.toNat
        | .bootRom => s.bootRom.read a.toNat
        | .scalar r => s.io.get r)) ∧
    (s.map.lookup a.toNat = none → s.read8 a = none ∧ s.hostRead8 a =
      .error (.fatal (.unmapped a .read s.pc0) { s with fault := some (.unmapped a .read s.pc0) })) ∧
    (∀ v, s.read8 a = some v → s.hostRead8 a = .ok v) ∧
    (∀ v, s.map.lookup a.toNat = none → s.write8 a v =
      .error (.fatal (.unmapped a .write s.pc0) { s with fault := some (.unmapped a .write s.pc0) })) ∧
    (∀ m v, s.map.lookup a.toNat = some m → m.readOnly = true → s.write8 a v = .ok s) ∧
    (∀ m v, s.map.lookup a.toNat = some m → m.readOnly = false → hooked a = false →
      s.write8 a v = .ok (match m.store with
        | .memory | .platform => { s with mem := s.mem.write a.toNat v }
        | .bootRom => { s with bootRom := s.bootRom.write a.toNat v }
        | .scalar r => { s with io := s.io.set r v }))

/-- A byte written to a mapping that is not read-only reads back, at the hooked addresses too, and a write
where no hook runs changes no other byte (R99, R97). -/
def Obligations.WriteThenReadReturnsValue : Prop :=
  ∀ (s t : State) (a : Word) (v : Byte), s.mapOk = true → s.storageOk = true → s.write8 a v = .ok t →
    (∀ m, s.map.lookup a.toNat = some m → m.readOnly = false → t.read8 a = some v) ∧
    (hooked a = false → ∀ b : Word, b ≠ a → t.read8 b = s.read8 b)

/-- BootHook: a write of 0, or with no boot ROM mapped, only stores; any other puts the cartridge's bytes at
0x0000-0x00FF and changes nothing else, and the map stays as R81 and R100 say (R95, R53). That the bytes
of `mem` at 0x0000-0x00FF are the cartridge's is the model's choice (log 16): a reset with a boot ROM fills
them from the image (ResetBuildsMachine), and no step writes them. -/
def Obligations.BootHookUnmapsBootRom : Prop :=
  ∀ (s : State) (v : Byte), s.mapOk = true →
    (v = 0 ∨ s.bootMapped = false →
      s.write8 0xFF50 v = .ok { s with io := { s.io with boot := v } }) ∧
    (v ≠ 0 → s.bootMapped = true → ∃ ms : BusMap,
      s.write8 0xFF50 v = .ok { s with io := { s.io with boot := v }, map := ms, bootMapped := false } ∧
      (∀ a : Word, inRange 0x0000 0x00FF a → ms.lookup a.toNat = some ⟨0x0000, 0x0100, true, .memory⟩) ∧
      (∀ a : Word, ¬ inRange 0x0000 0x00FF a → ms.lookup a.toNat = s.map.lookup a.toNat) ∧
      ({ s with map := ms, bootMapped := false } : State).mapOk = true)

/-- DmaHook: within the write, OAM takes the 160 bytes of the source page and no other byte changes; a
source byte no mapping contains stops it there, with the bytes before it copied (R50, R96, R362). -/
def Obligations.DmaHookCopiesPage : Prop :=
  ∀ (s : State) (v : Byte), s.mapOk = true → s.storageOk = true →
    let s1 : State := { s with io := { s.io with dma := v } }
    let src : Nat → Word := fun k => (v ++ 0#8) + .ofNat 16 k
    ((∀ k < 160, s1.read8 (src k) ≠ none) → ∃ m : Memory,
      s.write8 0xFF46 v = .ok { s1 with mem := m } ∧
      (∀ k < 160, ({ s1 with mem := m } : State).read8 (0xFE00 + .ofNat 16 k) = s1.read8 (src k)) ∧
      (∀ a : Word, ¬ inRange 0xFE00 0xFE9F a → ({ s1 with mem := m } : State).read8 a = s1.read8 a)) ∧
    (∀ k < 160, (∀ j < k, s1.read8 (src j) ≠ none) → s1.read8 (src k) = none → ∃ m : Memory,
      s.write8 0xFF46 v = .error (.fatal (.unmapped (src k) .read s.pc0)
        { s1 with mem := m, fault := some (.unmapped (src k) .read s.pc0) }) ∧
      (∀ j < k, ({ s1 with mem := m } : State).read8 (0xFE00 + .ofNat 16 j) = s1.read8 (src j)))

/-- `read16` and `write16`: little-endian, refused before any byte is accessed where the two bytes are not
in one mapping, 0xFFFF included (R86, R91). That an access refused between steps leaves `fault` set is the
model's choice (log 20). -/
def Obligations.SixteenBitHostAccesses : Prop :=
  ∀ (s : State) (a : Word), s.mapOk = true →
    ((∃ m ∈ s.map, m.base ≤ a.toNat ∧ a.toNat + 1 < m.base + m.size) →
      ∃ lo hi, s.read8 a = some lo ∧ s.read8 (a + 1) = some hi ∧ s.read16 a = .ok (hi ++ lo) ∧
      ∀ (v : Word), s.write16 a v =
        (match s.write8 a (lo8 v) with
          | .error f => .error f
          | .ok t => t.write8 (a + 1) (hi8 v))) ∧
    (¬(∃ m ∈ s.map, m.base ≤ a.toNat ∧ a.toNat + 1 < m.base + m.size) →
      s.read16 a = .error (.fatal (.splitAccess a) { s with fault := some (.splitAccess a) }) ∧
      ∀ v : Word, s.write16 a v = .error (.fatal (.splitAccess a) { s with fault := some (.splitAccess a) }))

/-- The set of mappings: adding keeps it sorted and free of overlaps and adds that mapping alone, or fails
on an overlap; removing takes away exactly the one of that base and size, or fails; at most one mapping
contains an address, and lookup finds it (R81, R82, R83, R87, R88). That an operation that fails leaves
`fault` set is the model's choice (log 20). -/
def Obligations.MappingSetOperations : Prop :=
  ∀ ms : BusMap, ms.Sorted = true → (∀ n ∈ ms, n.valid = true) →
    (∀ m : Mapping, m.valid = true → (∀ n ∈ ms, n.overlaps m = false) → ∃ ms' : BusMap,
      ms.add m = some ms' ∧ ms'.Sorted = true ∧ ∀ n, n ∈ ms' ↔ n = m ∨ n ∈ ms) ∧
    (∀ (s : State) (m n : Mapping), s.map = ms → n ∈ ms → n.overlaps m = true →
      s.addMapping m = .error (.fatal (.mappingOverlap m.base m.size)
        { s with fault := some (.mappingOverlap m.base m.size) })) ∧
    (∀ m ∈ ms, ∃ ms' : BusMap, ms.remove m.base m.size = some ms' ∧ ms'.Sorted = true ∧
      ∀ n, n ∈ ms' ↔ n ∈ ms ∧ n ≠ m) ∧
    (∀ (s : State) (base size : Nat), s.map = ms → (∀ n ∈ ms, ¬(n.base = base ∧ n.size = size)) →
      s.removeMapping base size = .error (.fatal (.mappingNotFound base size)
        { s with fault := some (.mappingNotFound base size) })) ∧
    (∀ m ∈ ms, ∀ a : Nat, m.base ≤ a → a < m.base + m.size → ms.lookup a = some m) ∧
    (∀ a : Nat, (∀ m ∈ ms, ¬(m.base ≤ a ∧ a < m.base + m.size)) → ms.lookup a = none)

/-! ### The PPU -/

/-- The LCD off: a tick does nothing, but the first one after an enabled tick resets the line. The LCD on
again: the tick is one of OAMSearch at the start of line 0 (R420, R421). -/
def Obligations.LcdSwitchesOffAndOn : Prop :=
  ∀ s : State,
    (s.io.lcdc.getLsbD 7 = false → s.ppu.lcdOn = false → s.tick = s) ∧
    (s.io.lcdc.getLsbD 7 = false → s.ppu.lcdOn = true → s.tick =
      { s with
        io := { s.io with ly := 0, stat := s.io.stat &&& 0xF8 },
        ppu := { s.ppu with
          lcdOn := false, x := 0, lineTick := 0, mode := .hblank, fifo := [], fstate := .tileNumber,
          fetchIdx := 0, fetchPhase := false, statLine := false } }) ∧
    (s.io.lcdc.getLsbD 7 = true → s.ppu.lcdOn = false → s.tick =
      ({ s with
        io := { s.io with ly := 0 },
        ppu := { s.ppu with lcdOn := true, mode := .oamSearch, lineTick := 1 } } : State).statUpdate)

/-- The ends of OAMSearch, of a visible line and of a VBlank line, in a tick with the LCD on: the reset of
the fetcher at line tick 80, the next line at 456, VBlank entry at line 144 with the swap, the flag and the
request, the next frame after line 153; nothing but the count before them (R422, R430, R431, R432). -/
def Obligations.LineAndFrameEnds : Prop :=
  ∀ s : State, s.io.lcdc.getLsbD 7 = true → s.ppu.lcdOn = true →
    (s.ppu.mode = .oamSearch → s.tick = State.statUpdate
      (if s.ppu.lineTick + 1 = 80 then
        { s with ppu := { s.ppu with
            lineTick := 80, fstate := .tileNumber, fetchIdx := 0, fetchPhase := false, x := 0,
            fifo := [], mode := .pixelTransfer } }
      else { s with ppu := { s.ppu with lineTick := s.ppu.lineTick + 1 } })) ∧
    (s.ppu.mode = .hblank → s.tick = State.statUpdate
      (if s.ppu.lineTick + 1 = 456 then
        if s.io.ly + 1 = 144 then
          { s with
            io := { s.io with ly := 144, iflag := s.io.iflag ||| 1 },
            ppu := { s.ppu with
              lineTick := 0, back := s.ppu.front, front := [], frameReady := true, mode := .vblank } }
        else
          { s with io := { s.io with ly := s.io.ly + 1 },
                   ppu := { s.ppu with lineTick := 0, mode := .oamSearch } }
      else { s with ppu := { s.ppu with lineTick := s.ppu.lineTick + 1 } })) ∧
    (s.ppu.mode = .vblank → s.tick = State.statUpdate
      (if s.ppu.lineTick + 1 = 456 then
        if s.io.ly = 153 then
          { s with io := { s.io with ly := 0 }, ppu := { s.ppu with lineTick := 0, mode := .oamSearch } }
        else { s with io := { s.io with ly := s.io.ly + 1 }, ppu := { s.ppu with lineTick := 0 } }
      else { s with ppu := { s.ppu with lineTick := s.ppu.lineTick + 1 } }))

/-- A tick of PixelTransfer with the LCD on: the fetcher acts on every other tick, before the pop; with
more than 8 pixels in the FIFO the front one goes through BGP to the framebuffer at (LY, x), and HBlank
begins at column 160 (R423, R428, R429). -/
def Obligations.PixelTransferTicks : Prop :=
  ∀ s : State, s.io.lcdc.getLsbD 7 = true → s.ppu.lcdOn = true → s.ppu.mode = .pixelTransfer →
    let s1 : State := { s with ppu := { s.ppu with lineTick := s.ppu.lineTick + 1 } }
    let s2 : State := if s.ppu.fetchPhase then s1.fetcherStep else s1
    (s2.ppu.fifo.length ≤ 8 → s.tick = State.statUpdate
      { s2 with ppu := { s2.ppu with fetchPhase := !s.ppu.fetchPhase } }) ∧
    (∀ i rest, s2.ppu.fifo = i :: rest → 8 ≤ rest.length → s.tick = State.statUpdate
      { s2 with ppu := { s2.ppu with
          fetchPhase := !s.ppu.fetchPhase, fifo := rest,
          front := s.ppu.front.write s.io.ly.toNat s.ppu.x (s.io.bgp.extractLsb' (2 * i.toNat) 2),
          x := s.ppu.x + 1, mode := if s.ppu.x + 1 = 160 then .hblank else .pixelTransfer } })

/-- The four steps of the fetcher: the tile number, the two planes of the tile's row, and the push of eight
pixels, leftmost first, which waits while the FIFO holds more than 8 (R424 to R427). The reads of VRAM are
the bus's (R107, log 13). -/
def Obligations.FetcherSteps : Prop :=
  ∀ s : State, s.mapOk = true → s.io.ly.toNat < 144 →
    let map : Word := (if s.io.lcdc.getLsbD 3 then 0x9C00 else 0x9800) +
      .ofNat 16 (32 * (s.io.ly.toNat / 8) + s.ppu.fetchIdx.toNat % 32)
    let row : Word := (if s.io.lcdc.getLsbD 4 then 0x8000 + 16 * s.ppu.tileNo.setWidth 16
      else 0x9000 + 16 * s.ppu.tileNo.signExtend 16) + .ofNat 16 (2 * (s.io.ly.toNat % 8))
    (s.ppu.fstate = .tileNumber → ∃ v, s.read8 map = some v ∧ s.fetcherStep =
      { s with ppu := { s.ppu with tileNo := v, fstate := .tileDataLow } }) ∧
    (s.ppu.fstate = .tileDataLow → ∃ v, s.read8 row = some v ∧ s.fetcherStep =
      { s with ppu := { s.ppu with dataLo := v, fstate := .tileDataHigh } }) ∧
    (s.ppu.fstate = .tileDataHigh → ∃ v, s.read8 (row + 1) = some v ∧ s.fetcherStep =
      { s with ppu := { s.ppu with dataHi := v, fstate := .pushToFifo } }) ∧
    (s.ppu.fstate = .pushToFifo → s.ppu.fifo.length ≤ 8 → s.fetcherStep =
      { s with ppu := { s.ppu with
          fifo := s.ppu.fifo ++ [7, 6, 5, 4, 3, 2, 1, 0].map (fun k =>
            BitVec.ofBool (s.ppu.dataHi.getLsbD k) ++ BitVec.ofBool (s.ppu.dataLo.getLsbD k)),
          fetchIdx := s.ppu.fetchIdx + 1, fstate := .tileNumber } }) ∧
    (s.ppu.fstate = .pushToFifo → 8 < s.ppu.fifo.length → s.fetcherStep = s)

/-- STAT's status bits, and the request on the rising edge of the selected conditions, once per edge (R46,
R441, R442). -/
def Obligations.StatBitsAndRequest : Prop :=
  ∀ s : State,
    let t := s.statUpdate
    let cond : Bool :=
      (s.io.stat.getLsbD 6 && decide (s.io.ly = s.io.lyc)) ||
      (s.io.stat.getLsbD 5 && decide (s.ppu.mode = .oamSearch)) ||
      (s.io.stat.getLsbD 4 && decide (s.ppu.mode = .vblank)) ||
      (s.io.stat.getLsbD 3 && decide (s.ppu.mode = .hblank))
    t.io.stat &&& 0xF8 = s.io.stat &&& 0xF8 ∧
    t.io.stat.getLsbD 2 = decide (s.io.ly = s.io.lyc) ∧
    t.io.stat.extractLsb' 0 2 = (match s.ppu.mode with
      | .hblank => 0 | .vblank => 1 | .oamSearch => 2 | .pixelTransfer => 3) ∧
    t.io.iflag = (if cond && !s.ppu.statLine then s.io.iflag ||| 2 else s.io.iflag) ∧
    t = { s with io := { s.io with stat := t.io.stat, iflag := t.io.iflag },
                 ppu := { s.ppu with statLine := cond } }

/-- A visible line, from its first tick: OAMSearch to line tick 79, PixelTransfer to 254, HBlank from 255
to the end at 456; the line's row of the framebuffer is then the background's, and no other row changed
(R422 to R430, R433, R492). -/
def Obligations.LineDrawsItsRow : Prop :=
  ∀ s : State, s.storageOk = true → s.ppuOk = true → s.ppu.lcdOn = true → s.ppu.mode = .oamSearch →
    s.ppu.lineTick = 0 →
    (∀ k, 0 < k → k < 80 → (s.ticks k).ppu.mode = .oamSearch) ∧
    (∀ k, 80 ≤ k → k < 255 → (s.ticks k).ppu.mode = .pixelTransfer) ∧
    (∀ k, 255 ≤ k → k < 456 → (s.ticks k).ppu.mode = .hblank) ∧
    (∀ k, k < 456 → (s.ticks k).ppu.lineTick = k ∧ (s.ticks k).io.ly = s.io.ly) ∧
    (∀ col < 160, (s.ticks 455).ppu.front.read s.io.ly.toNat col = s.bgPixel s.io.ly.toNat col) ∧
    (∀ row < 144, row ≠ s.io.ly.toNat → ∀ col < 160,
      (s.ticks 455).ppu.front.read row col = s.ppu.front.read row col) ∧
    (s.ticks 456).ppu.lineTick = 0 ∧ (s.ticks 456).io.ly = s.io.ly + 1 ∧
    (s.ticks 456).ppu.mode = (if s.io.ly + 1 = 144 then .vblank else .oamSearch)

/-- A frame, from the first tick of line 0: 65664 ticks later LY is 144, VBlank is requested, the frame is
ready and the back buffer is the background of the whole screen; 70224 ticks later line 0 begins again
(R431, R432, R433). -/
def Obligations.FrameShowsBackground : Prop :=
  ∀ s : State, s.storageOk = true → s.ppuOk = true → s.ppu.lcdOn = true → s.ppu.mode = .oamSearch →
    s.ppu.lineTick = 0 →
    s.io.ly = 0 →
    (∀ k < 65664, (s.ticks k).ppu.frameReady = s.ppu.frameReady ∧ (s.ticks k).ppu.back = s.ppu.back) ∧
    (s.ticks 65664).io.ly = 144 ∧ (s.ticks 65664).ppu.mode = .vblank ∧
    (s.ticks 65664).ppu.frameReady = true ∧ (s.ticks 65664).io.iflag.getLsbD 0 = true ∧
    (∀ row < 144, ∀ col < 160, (s.ticks 65664).ppu.back.read row col = s.bgPixel row col) ∧
    (s.ticks 70224).io.ly = 0 ∧ (s.ticks 70224).ppu.mode = .oamSearch ∧
    (s.ticks 70224).ppu.lineTick = 0 ∧ (s.ticks 70224).ppu.back = (s.ticks 65664).ppu.back

/-! ### Reset, the host and the invariant -/

/-- `reset`: the values of R64, the map of R100 with the platform's mappings added in order, the
cartridge's and the boot ROM's bytes, `RAM_INIT` in every RAM and 0 in 0xFEA0-0xFEFF; with a boot ROM,
the cartridge's first bytes under it. A short image and a mapping that overlaps one before it are errors,
and a boot ROM that is not 256 bytes long is left out with a warning (R64, R82, R100 to R106, R460, R461,
R463). What it builds meets the invariant. That the initial bytes of a platform's mapping come with it is
log 24, that 0x0000-0x00FF is always a mapping of its own is log 22; that those
bytes and the cartridge's under a boot ROM stand in `mem` at their own addresses is log 16. -/
def Obligations.ResetBuildsMachine : Prop :=
  ∀ p : ResetParams, p.cartRamSize ≤ 0x2000 → p.ramInit.wf = true → (∀ e ∈ p.extra, e.mapping.valid = true) →
    (p.rom.length < 16384 → resetWith p = .error (.romTooShort p.rom.length)) ∧
    (16384 ≤ p.rom.length → ∀ pre e post, p.extra = pre ++ e :: post →
      BusMap.Apart (baseMap false p.rom.length p.cartRamSize ++ pre.map ExtraMapping.mapping) →
      (∃ n ∈ baseMap false p.rom.length p.cartRamSize ++ pre.map ExtraMapping.mapping,
        n.overlaps e.mapping = true) →
      resetWith p = .error (.mappingOverlap e.base e.bytes.length)) ∧
    (16384 ≤ p.rom.length →
      BusMap.Apart (baseMap false p.rom.length p.cartRamSize ++ p.extra.map ExtraMapping.mapping) →
      ∃ s w, resetWith p = .ok (s, w) ∧ s.Inv ∧
      s.ime = false ∧ s.eiDelay = 0 ∧ s.halted = false ∧
      s.fault = none ∧ s.refused = none ∧ s.cyclesTotal = 0 ∧ s.stopRequested = false ∧
      (∀ n, n ∈ s.map ↔
        n ∈ baseMap s.bootMapped p.rom.length p.cartRamSize ∨ ∃ e ∈ p.extra, n = e.mapping) ∧
      (∀ k, 256 ≤ k → k < min p.rom.length 0x8000 → s.read8 (.ofNat 16 k) = p.rom[k]?) ∧
      (∀ a : Word, inRam p.cartRamSize a → s.read8 a = some (p.ramInit.read a.toNat)) ∧
      (∀ a : Word, inRange 0xFEA0 0xFEFF a → s.read8 a = some 0x00) ∧
      (∀ k < 23, s.read8 (0xFF10 + .ofNat 16 k) = some 0x00) ∧
      (∀ e ∈ p.extra, ∀ k < e.bytes.length, s.read8 (.ofNat 16 (e.base + k)) = e.bytes[k]?) ∧
      ((∀ b, p.bootRom = some b → b.length ≠ 256) →
        w = p.bootRom.map (fun b => .malformedBootRom b.length) ∧ s.bootMapped = false ∧
        s.regs = ⟨0x01, 0x00, 0x13, 0x00, 0xD8, 0x01, 0x4D⟩ ∧
        s.f = (if p.rom[0x14D]? = some 0x00 then 0xB0 else 0x80) ∧ s.sp = 0xFFFE ∧ s.pc = 0x0100 ∧
        s.io = ⟨0xCF, 0x00, 0x7E, 0x00, 0xF8, 0xE1, 0x91, 0x86, 0x00, 0x00, 0x00, 0x00, 0xFF, 0xFC,
          0xFF, 0xFF, 0x00, 0x00, 0x00, 0x00⟩ ∧
        s.ppu = ⟨.oamSearch, 0, true, .tileNumber, 0, false, 0, 0, 0, [], 0, [], [], false, false⟩ ∧
        (∀ k < 256, s.read8 (.ofNat 16 k) = p.rom[k]?)) ∧
      (∀ b, p.bootRom = some b → b.length = 256 →
        w = none ∧ s.bootMapped = true ∧
        s.regs = p.regInit.regs ∧ s.f = p.regInit.f &&& 0xF0 ∧ s.sp = p.regInit.sp ∧ s.pc = 0x0000 ∧
        s.io = ⟨0, 0, 0, 0, 0, 0, 0, 0, 0, 0, 0, 0, 0, 0, 0, 0, 0, 0, 0, 0⟩ ∧
        s.ppu = ⟨.hblank, 0, false, .tileNumber, 0, false, 0, 0, 0, [], 0, [], [], false, false⟩ ∧
        (∀ k < 256, s.read8 (.ofNat 16 k) = b[k]?) ∧
        (∀ k < 256, some (s.mem.read k) = p.rom[k]?)))

/-- The host's operations: the HALT latch, the drain, the reset, which alone goes on after a fault or a
refusal, and a run to the next frame, which in each round returns a ready frame, then stops on request,
then steps, the moves of the environment between its steps in any order with its readings (R455, R456,
R457, R465, R472). The bound on the rounds is the model's (log 15), and so is the state a reset that fails
carries (log 25). -/
def Obligations.HostOperations : Prop :=
  ∀ s : State,
    s.hostHalt = { s with halted := true } ∧ s.hostResume = { s with halted := false } ∧
    s.isHalted = s.halted ∧ s.programCounter = s.pc ∧
    s.drain = (s.ppu.back, { s with ppu := { s.ppu with frameReady := false } }) ∧
    (∀ p t w, resetWith p = .ok (t, w) → s.move (.reset p) = .next t) ∧
    (∀ p e, resetWith p = .error e → s.move (.reset p) = .fault (.fatal e { s with fault := some e })) ∧
    (∀ ms m e t, s.moves ms = .fault (.fatal e t) →
      (∀ p, m = .reset p → s.moves (ms ++ [m]) = t.move m) ∧
      ((∀ p, m ≠ .reset p) → s.moves (ms ++ [m]) = .fault (.fatal e t))) ∧
    (∀ ms m t, s.moves ms = .refused (.stop t) →
      (∀ p, m = .reset p → s.moves (ms ++ [m]) = t.move m) ∧
      ((∀ p, m ≠ .reset p) → s.moves (ms ++ [m]) = .refused (.stop t))) ∧
    (∀ ms m t, s.moves ms = .next t → s.moves (ms ++ [m]) = t.move m) ∧
    (∀ (g : Gap) (gs : List Gap),
      (∀ f, s.moves g.beforeRead = .fault f → runUntilFrame (g :: gs) s = .fault f) ∧
      (∀ r, s.moves g.beforeRead = .refused r → runUntilFrame (g :: gs) s = .refused r) ∧
      (∀ u, s.moves g.beforeRead = .next u →
        (∀ e, u.fault = some e → runUntilFrame (g :: gs) s = .fault (.fatal e u)) ∧
        (u.fault = none → u.refused = some .stop → runUntilFrame (g :: gs) s = .refused (.stop u)) ∧
        (u.fault = none → u.refused = none →
          (u.ppu.frameReady = true → runUntilFrame (g :: gs) s =
            .frame u.ppu.back { u with ppu := { u.ppu with frameReady := false } }) ∧
          (u.ppu.frameReady = false → u.stopRequested = true → runUntilFrame (g :: gs) s = .stopped u) ∧
          (u.ppu.frameReady = false → u.stopRequested = false →
            (∀ f, u.moves g.afterRead = .fault f → runUntilFrame (g :: gs) s = .fault f) ∧
            (∀ r, u.moves g.afterRead = .refused r → runUntilFrame (g :: gs) s = .refused r) ∧
            (∀ v, u.moves g.afterRead = .next v →
              (∀ t, step v = .next t → runUntilFrame (g :: gs) s = runUntilFrame gs t) ∧
              (∀ f, step v = .fault f → runUntilFrame (g :: gs) s = .fault f) ∧
              (∀ r, step v = .refused r → runUntilFrame (g :: gs) s = .refused r))))))

/-- The invariant holds right after reset (the model's instance of the reset: log 2, log 3, log 4). -/
def Obligations.ResetMeetsInvariant : Prop := State.reset.Inv

/-- Every step keeps the invariant: storage in its canonical form, the map as R81 and R100 say, the EI
delay and the marks as R37 and R39 say, the PPU's mode, pixel cursor and FIFO in step with the line and
its tick, STAT as the last tick wrote it (R37, R39, R59, R60, R81, R100, R420 to R432, R441). -/
def Obligations.StepKeepsInvariant : Prop :=
  ∀ s t : State, s.Inv → step s = .next t → t.Inv

/-- Whatever the host and the collaborators do between the steps, a reset with parameters R9 and R81 allow
among it, after a fault or a refusal too, the invariant is kept (R400, R455, R465, R472). -/
def Obligations.MovesKeepInvariant : Prop :=
  ∀ (s t : State) (ms : List Move), s.Inv → (∀ p, Move.reset p ∈ ms → p.Allowed) →
    s.moves ms = .next t → t.Inv

end
end

