-- ==== Sys2Proof/Laws/Memory.lean ====
section
/-! SUPPORT. Sparse storage: a read after a write, and the canonical form. -/

namespace Sys2Proof.Machine

section Sparse

variable {w : Nat} {d : BitVec w}

/-- A key below every key of a list in canonical form reads as the default. -/
theorem Sparse.read_of_lt {m : List (Nat × BitVec w)} {k : Nat} (h : ∀ e ∈ m, k < e.1) :
    Sparse.read d m k = d := by
  cases m with
  | nil => rfl
  | cons e rest => simp [Sparse.read, h e (by simp)]

/-- What the canonical form says of a list that is not empty. -/
theorem Sparse.wf_cons {k : Nat} {v : BitVec w} {m : List (Nat × BitVec w)} :
    Sparse.wf d ((k, v) :: m) = true ↔ v ≠ d ∧ (∀ e ∈ m, k < e.1) ∧ Sparse.wf d m = true := by
  simp [Sparse.wf, and_assoc]

theorem Sparse.read_write_same {m : List (Nat × BitVec w)} (h : Sparse.wf d m = true) (k : Nat)
    (v : BitVec w) : Sparse.read d (Sparse.write d m k v) k = v := by
  induction m with
  | nil => by_cases hv : v = d <;> simp [Sparse.write, Sparse.read, hv]
  | cons e rest ih =>
    obtain ⟨k', v'⟩ := e
    obtain ⟨-, hlt, hw⟩ := Sparse.wf_cons.1 h
    unfold Sparse.write
    split
    · next hk => by_cases hv : v = d <;> simp [Sparse.read, hv, hk]
    · split
      · next hk =>
        subst hk
        by_cases hv : v = d
        · simp [hv, Sparse.read_of_lt hlt]
        · simp [hv, Sparse.read]
      · next h1 h2 => simp [Sparse.read, h1, h2, ih hw]

theorem Sparse.read_write_other {m : List (Nat × BitVec w)} (h : Sparse.wf d m = true) {k k₂ : Nat}
    (v : BitVec w) (hk : k₂ ≠ k) : Sparse.read d (Sparse.write d m k v) k₂ = Sparse.read d m k₂ := by
  induction m with
  | nil =>
    by_cases hv : v = d
    · simp [Sparse.write, hv]
    · simp [Sparse.write, Sparse.read, hv, hk]
  | cons e rest ih =>
    obtain ⟨k', v'⟩ := e
    obtain ⟨-, hlt, hw⟩ := Sparse.wf_cons.1 h
    unfold Sparse.write
    split
    · next h1 =>
      by_cases hv : v = d
      · simp [hv]
      · simp only [hv, if_false, Sparse.read]
        by_cases h2 : k₂ < k
        · simp [h2, Nat.lt_trans h2 h1]
        · simp [h2, hk]
    · split
      · next h1 =>
        subst h1
        by_cases hv : v = d
        · simp only [hv, if_true, Sparse.read, hk, if_false]
          by_cases h2 : k₂ < k
          · simp only [h2, if_true]
            exact Sparse.read_of_lt fun e he => Nat.lt_trans h2 (hlt e he)
          · simp [h2]
        · simp [hv, Sparse.read, hk]
      · simp only [Sparse.read, ih hw]

theorem Sparse.write_lt {m : List (Nat × BitVec w)} {k j : Nat} {v : BitVec w}
    (h : ∀ e ∈ m, j < e.1) (hk : j < k) : ∀ e ∈ Sparse.write d m k v, j < e.1 := by
  induction m with
  | nil =>
    intro e he
    unfold Sparse.write at he
    split at he
    · simp at he
    · simp only [List.mem_singleton] at he; rw [he]; exact hk
  | cons e rest ih =>
    obtain ⟨k', v'⟩ := e
    have hr : ∀ e ∈ rest, j < e.1 := fun e he => h e (by simp [he])
    have h0 : j < k' := h (k', v') (by simp)
    intro e he
    unfold Sparse.write at he
    split at he
    · split at he
      · exact h e he
      · rcases List.mem_cons.1 he with rfl | he
        · exact hk
        · exact h e he
    · split at he
      · split at he
        · exact hr e he
        · rcases List.mem_cons.1 he with rfl | he
          · exact hk
          · exact hr e he
      · rcases List.mem_cons.1 he with rfl | he
        · exact h0
        · exact ih hr e he

/-- A write keeps the canonical form. -/
theorem Sparse.wf_write {m : List (Nat × BitVec w)} (h : Sparse.wf d m = true) (k : Nat) (v : BitVec w) :
    Sparse.wf d (Sparse.write d m k v) = true := by
  induction m with
  | nil => by_cases hv : v = d <;> simp [Sparse.write, Sparse.wf, hv]
  | cons e rest ih =>
    obtain ⟨k', v'⟩ := e
    obtain ⟨hv', hlt, hw⟩ := Sparse.wf_cons.1 h
    unfold Sparse.write
    split
    · next hk =>
      by_cases hv : v = d
      · simp [hv, h]
      · simp only [hv, if_false]
        refine Sparse.wf_cons.2 ⟨hv, fun e he => ?_, h⟩
        rcases List.mem_cons.1 he with rfl | he
        · exact hk
        · exact Nat.lt_trans hk (hlt e he)
    · split
      · next hk =>
        subst hk
        by_cases hv : v = d
        · simp [hv, hw]
        · simp only [hv, if_false]
          exact Sparse.wf_cons.2 ⟨hv, hlt, hw⟩
      · next h1 h2 =>
        exact Sparse.wf_cons.2 ⟨hv', Sparse.write_lt hlt (by omega), ih hw⟩

/-- Two lists in canonical form that read alike are the same list. -/
theorem Sparse.ext {m m' : List (Nat × BitVec w)} (h : Sparse.wf d m = true) (h' : Sparse.wf d m' = true)
    (hr : ∀ k, Sparse.read d m k = Sparse.read d m' k) : m = m' := by
  induction m generalizing m' with
  | nil =>
    cases m' with
    | nil => rfl
    | cons e rest =>
      have := hr e.1
      simp [Sparse.read] at this
      exact absurd this.symm (Sparse.wf_cons.1 h').1
  | cons e rest ih =>
    obtain ⟨k, v⟩ := e
    obtain ⟨hv, hlt, hw⟩ := Sparse.wf_cons.1 h
    cases m' with
    | nil =>
      have := hr k
      simp [Sparse.read] at this
      exact absurd this hv
    | cons e' rest' =>
      obtain ⟨k', v'⟩ := e'
      obtain ⟨hv', hlt', hw'⟩ := Sparse.wf_cons.1 h'
      have hkk : k = k' := by
        rcases Nat.lt_trichotomy k k' with hl | he | hl
        · have := hr k; simp [Sparse.read, hl] at this; exact absurd this hv
        · exact he
        · have := hr k'; simp [Sparse.read, hl] at this; exact absurd this.symm hv'
      subst hkk
      have hvv : v = v' := by have := hr k; simpa [Sparse.read] using this
      subst hvv
      congr 1
      refine ih hw hw' fun j => ?_
      by_cases hj : k < j
      · have := hr j
        simpa [Sparse.read, Nat.not_lt.2 (Nat.le_of_lt hj), Nat.ne_of_gt hj] using this
      · rw [Sparse.read_of_lt fun e he => Nat.lt_of_le_of_lt (Nat.not_lt.1 hj) (hlt e he),
          Sparse.read_of_lt fun e he => Nat.lt_of_le_of_lt (Nat.not_lt.1 hj) (hlt' e he)]

end Sparse

/-! ### Memory and framebuffers -/

theorem Memory.read_write_same {m : Memory} (h : m.wf = true) (a : Nat) (v : Byte) :
    (m.write a v).read a = v := Sparse.read_write_same h a v

theorem Memory.read_write_other {m : Memory} (h : m.wf = true) {a b : Nat} (v : Byte) (hb : b ≠ a) :
    (m.write a v).read b = m.read b := Sparse.read_write_other h v hb

theorem Memory.wf_write {m : Memory} (h : m.wf = true) (a : Nat) (v : Byte) : (m.write a v).wf = true :=
  Sparse.wf_write h a v

theorem Memory.wf_load {m : Memory} (h : m.wf = true) (a : Nat) (vs : List Byte) :
    (m.load a vs).wf = true := by
  induction vs generalizing m a with
  | nil => exact h
  | cons v rest ih => exact ih (Memory.wf_write h a v) (a + 1)

/-- Columns of one row, and rows, have keys of their own. -/
theorem Frame.key_inj {r r' c c' : Nat} (hc : c < 160) (hc' : c' < 160)
    (h : Frame.key r c = Frame.key r' c') : r = r' ∧ c = c' := by
  simp only [Frame.key, Config.lineWidth] at h
  omega

theorem Frame.read_write_same {f : Frame} (h : f.wf = true) (r c : Nat) (v : Shade) :
    (f.write r c v).read r c = v := Sparse.read_write_same h _ v

theorem Frame.read_write_other {f : Frame} (h : f.wf = true) {r r' c c' : Nat} (v : Shade)
    (hc : c < 160) (hc' : c' < 160) (hne : r' ≠ r ∨ c' ≠ c) :
    (f.write r c v).read r' c' = f.read r' c' := by
  refine Sparse.read_write_other h v fun hk => ?_
  obtain ⟨h1, h2⟩ := Frame.key_inj hc' hc hk
  rcases hne with h3 | h3
  · exact h3 h1
  · exact h3 h2

theorem Frame.wf_write {f : Frame} (h : f.wf = true) (r c : Nat) (v : Shade) :
    (f.write r c v).wf = true := Sparse.wf_write h _ v

end Sys2Proof.Machine
end

