-- ==== Sys2Proof/Laws/State.lean ====
section
/-! SUPPORT. One lemma per field and named update of the state, so that no proof unfolds a record. -/

namespace Sys2Proof.Machine

/-! `setReg` -/

@[simp] theorem State.setReg_regs (s : State) (r : Reg8) (v : Byte) :
    (s.setReg r v).regs = s.regs.set r v := rfl

@[simp] theorem State.setReg_flags (s : State) (r : Reg8) (v : Byte) :
    (s.setReg r v).flags = s.flags := rfl

@[simp] theorem State.setReg_sp (s : State) (r : Reg8) (v : Byte) :
    (s.setReg r v).sp = s.sp := rfl

@[simp] theorem State.setReg_pc (s : State) (r : Reg8) (v : Byte) :
    (s.setReg r v).pc = s.pc := rfl

@[simp] theorem State.setReg_ime (s : State) (r : Reg8) (v : Byte) :
    (s.setReg r v).ime = s.ime := rfl

@[simp] theorem State.setReg_eiDelay (s : State) (r : Reg8) (v : Byte) :
    (s.setReg r v).eiDelay = s.eiDelay := rfl

@[simp] theorem State.setReg_halted (s : State) (r : Reg8) (v : Byte) :
    (s.setReg r v).halted = s.halted := rfl

@[simp] theorem State.setReg_fault (s : State) (r : Reg8) (v : Byte) :
    (s.setReg r v).fault = s.fault := rfl

@[simp] theorem State.setReg_refused (s : State) (r : Reg8) (v : Byte) :
    (s.setReg r v).refused = s.refused := rfl

@[simp] theorem State.setReg_cyclesTotal (s : State) (r : Reg8) (v : Byte) :
    (s.setReg r v).cyclesTotal = s.cyclesTotal := rfl

@[simp] theorem State.setReg_stopRequested (s : State) (r : Reg8) (v : Byte) :
    (s.setReg r v).stopRequested = s.stopRequested := rfl

@[simp] theorem State.setReg_io (s : State) (r : Reg8) (v : Byte) :
    (s.setReg r v).io = s.io := rfl

@[simp] theorem State.setReg_bootMapped (s : State) (r : Reg8) (v : Byte) :
    (s.setReg r v).bootMapped = s.bootMapped := rfl

@[simp] theorem State.setReg_map (s : State) (r : Reg8) (v : Byte) :
    (s.setReg r v).map = s.map := rfl

@[simp] theorem State.setReg_mem (s : State) (r : Reg8) (v : Byte) :
    (s.setReg r v).mem = s.mem := rfl

@[simp] theorem State.setReg_bootRom (s : State) (r : Reg8) (v : Byte) :
    (s.setReg r v).bootRom = s.bootRom := rfl

@[simp] theorem State.setReg_ppu (s : State) (r : Reg8) (v : Byte) :
    (s.setReg r v).ppu = s.ppu := rfl

@[simp] theorem State.setReg_pc0 (s : State) (r : Reg8) (v : Byte) :
    (s.setReg r v).pc0 = s.pc0 := rfl

@[simp] theorem State.setReg_stepCycles (s : State) (r : Reg8) (v : Byte) :
    (s.setReg r v).stepCycles = s.stepCycles := rfl

/-! `setFlags` -/

@[simp] theorem State.setFlags_regs (s : State) (f : Flags) : (s.setFlags f).regs = s.regs := rfl

@[simp] theorem State.setFlags_flags (s : State) (f : Flags) : (s.setFlags f).flags = f := rfl

@[simp] theorem State.setFlags_sp (s : State) (f : Flags) : (s.setFlags f).sp = s.sp := rfl

@[simp] theorem State.setFlags_pc (s : State) (f : Flags) : (s.setFlags f).pc = s.pc := rfl

@[simp] theorem State.setFlags_ime (s : State) (f : Flags) : (s.setFlags f).ime = s.ime := rfl

@[simp] theorem State.setFlags_eiDelay (s : State) (f : Flags) :
    (s.setFlags f).eiDelay = s.eiDelay := rfl

@[simp] theorem State.setFlags_halted (s : State) (f : Flags) :
    (s.setFlags f).halted = s.halted := rfl

@[simp] theorem State.setFlags_fault (s : State) (f : Flags) :
    (s.setFlags f).fault = s.fault := rfl

@[simp] theorem State.setFlags_refused (s : State) (f : Flags) :
    (s.setFlags f).refused = s.refused := rfl

@[simp] theorem State.setFlags_cyclesTotal (s : State) (f : Flags) :
    (s.setFlags f).cyclesTotal = s.cyclesTotal := rfl

@[simp] theorem State.setFlags_stopRequested (s : State) (f : Flags) :
    (s.setFlags f).stopRequested = s.stopRequested := rfl

@[simp] theorem State.setFlags_io (s : State) (f : Flags) : (s.setFlags f).io = s.io := rfl

@[simp] theorem State.setFlags_bootMapped (s : State) (f : Flags) :
    (s.setFlags f).bootMapped = s.bootMapped := rfl

@[simp] theorem State.setFlags_map (s : State) (f : Flags) : (s.setFlags f).map = s.map := rfl

@[simp] theorem State.setFlags_mem (s : State) (f : Flags) : (s.setFlags f).mem = s.mem := rfl

@[simp] theorem State.setFlags_bootRom (s : State) (f : Flags) :
    (s.setFlags f).bootRom = s.bootRom := rfl

@[simp] theorem State.setFlags_ppu (s : State) (f : Flags) : (s.setFlags f).ppu = s.ppu := rfl

@[simp] theorem State.setFlags_pc0 (s : State) (f : Flags) : (s.setFlags f).pc0 = s.pc0 := rfl

@[simp] theorem State.setFlags_stepCycles (s : State) (f : Flags) :
    (s.setFlags f).stepCycles = s.stepCycles := rfl

/-! `setPc` -/

@[simp] theorem State.setPc_regs (s : State) (v : Word) : (s.setPc v).regs = s.regs := rfl

@[simp] theorem State.setPc_flags (s : State) (v : Word) : (s.setPc v).flags = s.flags := rfl

@[simp] theorem State.setPc_sp (s : State) (v : Word) : (s.setPc v).sp = s.sp := rfl

@[simp] theorem State.setPc_pc (s : State) (v : Word) : (s.setPc v).pc = v := rfl

@[simp] theorem State.setPc_ime (s : State) (v : Word) : (s.setPc v).ime = s.ime := rfl

@[simp] theorem State.setPc_eiDelay (s : State) (v : Word) :
    (s.setPc v).eiDelay = s.eiDelay := rfl

@[simp] theorem State.setPc_halted (s : State) (v : Word) : (s.setPc v).halted = s.halted := rfl

@[simp] theorem State.setPc_fault (s : State) (v : Word) : (s.setPc v).fault = s.fault := rfl

@[simp] theorem State.setPc_refused (s : State) (v : Word) :
    (s.setPc v).refused = s.refused := rfl

@[simp] theorem State.setPc_cyclesTotal (s : State) (v : Word) :
    (s.setPc v).cyclesTotal = s.cyclesTotal := rfl

@[simp] theorem State.setPc_stopRequested (s : State) (v : Word) :
    (s.setPc v).stopRequested = s.stopRequested := rfl

@[simp] theorem State.setPc_io (s : State) (v : Word) : (s.setPc v).io = s.io := rfl

@[simp] theorem State.setPc_bootMapped (s : State) (v : Word) :
    (s.setPc v).bootMapped = s.bootMapped := rfl

@[simp] theorem State.setPc_map (s : State) (v : Word) : (s.setPc v).map = s.map := rfl

@[simp] theorem State.setPc_mem (s : State) (v : Word) : (s.setPc v).mem = s.mem := rfl

@[simp] theorem State.setPc_bootRom (s : State) (v : Word) :
    (s.setPc v).bootRom = s.bootRom := rfl

@[simp] theorem State.setPc_ppu (s : State) (v : Word) : (s.setPc v).ppu = s.ppu := rfl

@[simp] theorem State.setPc_pc0 (s : State) (v : Word) : (s.setPc v).pc0 = s.pc0 := rfl

@[simp] theorem State.setPc_stepCycles (s : State) (v : Word) :
    (s.setPc v).stepCycles = s.stepCycles := rfl

/-! `setSp` -/

@[simp] theorem State.setSp_regs (s : State) (v : Word) : (s.setSp v).regs = s.regs := rfl

@[simp] theorem State.setSp_flags (s : State) (v : Word) : (s.setSp v).flags = s.flags := rfl

@[simp] theorem State.setSp_sp (s : State) (v : Word) : (s.setSp v).sp = v := rfl

@[simp] theorem State.setSp_pc (s : State) (v : Word) : (s.setSp v).pc = s.pc := rfl

@[simp] theorem State.setSp_ime (s : State) (v : Word) : (s.setSp v).ime = s.ime := rfl

@[simp] theorem State.setSp_eiDelay (s : State) (v : Word) :
    (s.setSp v).eiDelay = s.eiDelay := rfl

@[simp] theorem State.setSp_halted (s : State) (v : Word) : (s.setSp v).halted = s.halted := rfl

@[simp] theorem State.setSp_fault (s : State) (v : Word) : (s.setSp v).fault = s.fault := rfl

@[simp] theorem State.setSp_refused (s : State) (v : Word) :
    (s.setSp v).refused = s.refused := rfl

@[simp] theorem State.setSp_cyclesTotal (s : State) (v : Word) :
    (s.setSp v).cyclesTotal = s.cyclesTotal := rfl

@[simp] theorem State.setSp_stopRequested (s : State) (v : Word) :
    (s.setSp v).stopRequested = s.stopRequested := rfl

@[simp] theorem State.setSp_io (s : State) (v : Word) : (s.setSp v).io = s.io := rfl

@[simp] theorem State.setSp_bootMapped (s : State) (v : Word) :
    (s.setSp v).bootMapped = s.bootMapped := rfl

@[simp] theorem State.setSp_map (s : State) (v : Word) : (s.setSp v).map = s.map := rfl

@[simp] theorem State.setSp_mem (s : State) (v : Word) : (s.setSp v).mem = s.mem := rfl

@[simp] theorem State.setSp_bootRom (s : State) (v : Word) :
    (s.setSp v).bootRom = s.bootRom := rfl

@[simp] theorem State.setSp_ppu (s : State) (v : Word) : (s.setSp v).ppu = s.ppu := rfl

@[simp] theorem State.setSp_pc0 (s : State) (v : Word) : (s.setSp v).pc0 = s.pc0 := rfl

@[simp] theorem State.setSp_stepCycles (s : State) (v : Word) :
    (s.setSp v).stepCycles = s.stepCycles := rfl

/-! `setPair` -/

@[simp] theorem State.setPair_flags (s : State) (p : Pair) (v : Word) :
    (s.setPair p v).flags = s.flags := by cases p <;> rfl

@[simp] theorem State.setPair_pc (s : State) (p : Pair) (v : Word) :
    (s.setPair p v).pc = s.pc := by cases p <;> rfl

@[simp] theorem State.setPair_ime (s : State) (p : Pair) (v : Word) :
    (s.setPair p v).ime = s.ime := by cases p <;> rfl

@[simp] theorem State.setPair_eiDelay (s : State) (p : Pair) (v : Word) :
    (s.setPair p v).eiDelay = s.eiDelay := by cases p <;> rfl

@[simp] theorem State.setPair_halted (s : State) (p : Pair) (v : Word) :
    (s.setPair p v).halted = s.halted := by cases p <;> rfl

@[simp] theorem State.setPair_fault (s : State) (p : Pair) (v : Word) :
    (s.setPair p v).fault = s.fault := by cases p <;> rfl

@[simp] theorem State.setPair_refused (s : State) (p : Pair) (v : Word) :
    (s.setPair p v).refused = s.refused := by cases p <;> rfl

@[simp] theorem State.setPair_cyclesTotal (s : State) (p : Pair) (v : Word) :
    (s.setPair p v).cyclesTotal = s.cyclesTotal := by cases p <;> rfl

@[simp] theorem State.setPair_stopRequested (s : State) (p : Pair) (v : Word) :
    (s.setPair p v).stopRequested = s.stopRequested := by cases p <;> rfl

@[simp] theorem State.setPair_io (s : State) (p : Pair) (v : Word) :
    (s.setPair p v).io = s.io := by cases p <;> rfl

@[simp] theorem State.setPair_bootMapped (s : State) (p : Pair) (v : Word) :
    (s.setPair p v).bootMapped = s.bootMapped := by cases p <;> rfl

@[simp] theorem State.setPair_map (s : State) (p : Pair) (v : Word) :
    (s.setPair p v).map = s.map := by cases p <;> rfl

@[simp] theorem State.setPair_mem (s : State) (p : Pair) (v : Word) :
    (s.setPair p v).mem = s.mem := by cases p <;> rfl

@[simp] theorem State.setPair_bootRom (s : State) (p : Pair) (v : Word) :
    (s.setPair p v).bootRom = s.bootRom := by cases p <;> rfl

@[simp] theorem State.setPair_ppu (s : State) (p : Pair) (v : Word) :
    (s.setPair p v).ppu = s.ppu := by cases p <;> rfl

@[simp] theorem State.setPair_pc0 (s : State) (p : Pair) (v : Word) :
    (s.setPair p v).pc0 = s.pc0 := by cases p <;> rfl

@[simp] theorem State.setPair_stepCycles (s : State) (p : Pair) (v : Word) :
    (s.setPair p v).stepCycles = s.stepCycles := by cases p <;> rfl

/-! `setStackPair` -/

@[simp] theorem State.setStackPair_sp (s : State) (p : StackPair) (v : Word) :
    (s.setStackPair p v).sp = s.sp := by cases p <;> rfl

@[simp] theorem State.setStackPair_pc (s : State) (p : StackPair) (v : Word) :
    (s.setStackPair p v).pc = s.pc := by cases p <;> rfl

@[simp] theorem State.setStackPair_ime (s : State) (p : StackPair) (v : Word) :
    (s.setStackPair p v).ime = s.ime := by cases p <;> rfl

@[simp] theorem State.setStackPair_eiDelay (s : State) (p : StackPair) (v : Word) :
    (s.setStackPair p v).eiDelay = s.eiDelay := by cases p <;> rfl

@[simp] theorem State.setStackPair_halted (s : State) (p : StackPair) (v : Word) :
    (s.setStackPair p v).halted = s.halted := by cases p <;> rfl

@[simp] theorem State.setStackPair_fault (s : State) (p : StackPair) (v : Word) :
    (s.setStackPair p v).fault = s.fault := by cases p <;> rfl

@[simp] theorem State.setStackPair_refused (s : State) (p : StackPair) (v : Word) :
    (s.setStackPair p v).refused = s.refused := by cases p <;> rfl

@[simp] theorem State.setStackPair_cyclesTotal (s : State) (p : StackPair) (v : Word) :
    (s.setStackPair p v).cyclesTotal = s.cyclesTotal := by cases p <;> rfl

@[simp] theorem State.setStackPair_stopRequested (s : State) (p : StackPair) (v : Word) :
    (s.setStackPair p v).stopRequested = s.stopRequested := by cases p <;> rfl

@[simp] theorem State.setStackPair_io (s : State) (p : StackPair) (v : Word) :
    (s.setStackPair p v).io = s.io := by cases p <;> rfl

@[simp] theorem State.setStackPair_bootMapped (s : State) (p : StackPair) (v : Word) :
    (s.setStackPair p v).bootMapped = s.bootMapped := by cases p <;> rfl

@[simp] theorem State.setStackPair_map (s : State) (p : StackPair) (v : Word) :
    (s.setStackPair p v).map = s.map := by cases p <;> rfl

@[simp] theorem State.setStackPair_mem (s : State) (p : StackPair) (v : Word) :
    (s.setStackPair p v).mem = s.mem := by cases p <;> rfl

@[simp] theorem State.setStackPair_bootRom (s : State) (p : StackPair) (v : Word) :
    (s.setStackPair p v).bootRom = s.bootRom := by cases p <;> rfl

@[simp] theorem State.setStackPair_ppu (s : State) (p : StackPair) (v : Word) :
    (s.setStackPair p v).ppu = s.ppu := by cases p <;> rfl

@[simp] theorem State.setStackPair_pc0 (s : State) (p : StackPair) (v : Word) :
    (s.setStackPair p v).pc0 = s.pc0 := by cases p <;> rfl

@[simp] theorem State.setStackPair_stepCycles (s : State) (p : StackPair) (v : Word) :
    (s.setStackPair p v).stepCycles = s.stepCycles := by cases p <;> rfl

@[simp] theorem State.setPair_bc_sp (s : State) (v : Word) : (s.setPair .bc v).sp = s.sp := rfl

@[simp] theorem State.setPair_de_sp (s : State) (v : Word) : (s.setPair .de v).sp = s.sp := rfl

@[simp] theorem State.setPair_hl_sp (s : State) (v : Word) : (s.setPair .hl v).sp = s.sp := rfl

@[simp] theorem State.setPair_sp_sp (s : State) (v : Word) : (s.setPair .sp v).sp = v := rfl

@[simp] theorem State.setPair_sp_regs (s : State) (v : Word) :
    (s.setPair .sp v).regs = s.regs := rfl

@[simp] theorem State.setStackPair_bc_flags (s : State) (v : Word) :
    (s.setStackPair .bc v).flags = s.flags := rfl

@[simp] theorem State.setStackPair_de_flags (s : State) (v : Word) :
    (s.setStackPair .de v).flags = s.flags := rfl

@[simp] theorem State.setStackPair_hl_flags (s : State) (v : Word) :
    (s.setStackPair .hl v).flags = s.flags := rfl

/-! `writeStore` -/

@[simp] theorem State.writeStore_regs (s : State) (st : Store) (a : Nat) (v : Byte) :
    (s.writeStore st a v).regs = s.regs := by cases st <;> rfl

@[simp] theorem State.writeStore_flags (s : State) (st : Store) (a : Nat) (v : Byte) :
    (s.writeStore st a v).flags = s.flags := by cases st <;> rfl

@[simp] theorem State.writeStore_sp (s : State) (st : Store) (a : Nat) (v : Byte) :
    (s.writeStore st a v).sp = s.sp := by cases st <;> rfl

@[simp] theorem State.writeStore_pc (s : State) (st : Store) (a : Nat) (v : Byte) :
    (s.writeStore st a v).pc = s.pc := by cases st <;> rfl

@[simp] theorem State.writeStore_ime (s : State) (st : Store) (a : Nat) (v : Byte) :
    (s.writeStore st a v).ime = s.ime := by cases st <;> rfl

@[simp] theorem State.writeStore_eiDelay (s : State) (st : Store) (a : Nat) (v : Byte) :
    (s.writeStore st a v).eiDelay = s.eiDelay := by cases st <;> rfl

@[simp] theorem State.writeStore_halted (s : State) (st : Store) (a : Nat) (v : Byte) :
    (s.writeStore st a v).halted = s.halted := by cases st <;> rfl

@[simp] theorem State.writeStore_fault (s : State) (st : Store) (a : Nat) (v : Byte) :
    (s.writeStore st a v).fault = s.fault := by cases st <;> rfl

@[simp] theorem State.writeStore_refused (s : State) (st : Store) (a : Nat) (v : Byte) :
    (s.writeStore st a v).refused = s.refused := by cases st <;> rfl

@[simp] theorem State.writeStore_cyclesTotal (s : State) (st : Store) (a : Nat) (v : Byte) :
    (s.writeStore st a v).cyclesTotal = s.cyclesTotal := by cases st <;> rfl

@[simp] theorem State.writeStore_stopRequested (s : State) (st : Store) (a : Nat) (v : Byte) :
    (s.writeStore st a v).stopRequested = s.stopRequested := by cases st <;> rfl

@[simp] theorem State.writeStore_bootMapped (s : State) (st : Store) (a : Nat) (v : Byte) :
    (s.writeStore st a v).bootMapped = s.bootMapped := by cases st <;> rfl

@[simp] theorem State.writeStore_map (s : State) (st : Store) (a : Nat) (v : Byte) :
    (s.writeStore st a v).map = s.map := by cases st <;> rfl

@[simp] theorem State.writeStore_ppu (s : State) (st : Store) (a : Nat) (v : Byte) :
    (s.writeStore st a v).ppu = s.ppu := by cases st <;> rfl

@[simp] theorem State.writeStore_pc0 (s : State) (st : Store) (a : Nat) (v : Byte) :
    (s.writeStore st a v).pc0 = s.pc0 := by cases st <;> rfl

@[simp] theorem State.writeStore_stepCycles (s : State) (st : Store) (a : Nat) (v : Byte) :
    (s.writeStore st a v).stepCycles = s.stepCycles := by cases st <;> rfl

/-! `count` -/

@[simp] theorem State.count_regs (s : State) (n : Nat) : (s.count n).regs = s.regs := rfl

@[simp] theorem State.count_flags (s : State) (n : Nat) : (s.count n).flags = s.flags := rfl

@[simp] theorem State.count_sp (s : State) (n : Nat) : (s.count n).sp = s.sp := rfl

@[simp] theorem State.count_pc (s : State) (n : Nat) : (s.count n).pc = s.pc := rfl

@[simp] theorem State.count_ime (s : State) (n : Nat) : (s.count n).ime = s.ime := rfl

@[simp] theorem State.count_eiDelay (s : State) (n : Nat) : (s.count n).eiDelay = s.eiDelay := rfl

@[simp] theorem State.count_halted (s : State) (n : Nat) : (s.count n).halted = s.halted := rfl

@[simp] theorem State.count_fault (s : State) (n : Nat) : (s.count n).fault = s.fault := rfl

@[simp] theorem State.count_refused (s : State) (n : Nat) : (s.count n).refused = s.refused := rfl

@[simp] theorem State.count_cyclesTotal (s : State) (n : Nat) :
    (s.count n).cyclesTotal = s.cyclesTotal := rfl

@[simp] theorem State.count_stopRequested (s : State) (n : Nat) :
    (s.count n).stopRequested = s.stopRequested := rfl

@[simp] theorem State.count_io (s : State) (n : Nat) : (s.count n).io = s.io := rfl

@[simp] theorem State.count_bootMapped (s : State) (n : Nat) :
    (s.count n).bootMapped = s.bootMapped := rfl

@[simp] theorem State.count_map (s : State) (n : Nat) : (s.count n).map = s.map := rfl

@[simp] theorem State.count_mem (s : State) (n : Nat) : (s.count n).mem = s.mem := rfl

@[simp] theorem State.count_bootRom (s : State) (n : Nat) : (s.count n).bootRom = s.bootRom := rfl

@[simp] theorem State.count_ppu (s : State) (n : Nat) : (s.count n).ppu = s.ppu := rfl

@[simp] theorem State.count_pc0 (s : State) (n : Nat) : (s.count n).pc0 = s.pc0 := rfl

@[simp] theorem State.count_stepCycles (s : State) (n : Nat) :
    (s.count n).stepCycles = s.stepCycles + n := rfl

/-! `request` -/

@[simp] theorem State.request_regs (s : State) (i : Source) : (s.request i).regs = s.regs := rfl

@[simp] theorem State.request_flags (s : State) (i : Source) :
    (s.request i).flags = s.flags := rfl

@[simp] theorem State.request_sp (s : State) (i : Source) : (s.request i).sp = s.sp := rfl

@[simp] theorem State.request_pc (s : State) (i : Source) : (s.request i).pc = s.pc := rfl

@[simp] theorem State.request_ime (s : State) (i : Source) : (s.request i).ime = s.ime := rfl

@[simp] theorem State.request_eiDelay (s : State) (i : Source) :
    (s.request i).eiDelay = s.eiDelay := rfl

@[simp] theorem State.request_halted (s : State) (i : Source) :
    (s.request i).halted = s.halted := rfl

@[simp] theorem State.request_fault (s : State) (i : Source) :
    (s.request i).fault = s.fault := rfl

@[simp] theorem State.request_refused (s : State) (i : Source) :
    (s.request i).refused = s.refused := rfl

@[simp] theorem State.request_cyclesTotal (s : State) (i : Source) :
    (s.request i).cyclesTotal = s.cyclesTotal := rfl

@[simp] theorem State.request_stopRequested (s : State) (i : Source) :
    (s.request i).stopRequested = s.stopRequested := rfl

@[simp] theorem State.request_io (s : State) (i : Source) :
    (s.request i).io = { s.io with iflag := s.io.iflag ||| bit8 i.bit } := rfl

@[simp] theorem State.request_bootMapped (s : State) (i : Source) :
    (s.request i).bootMapped = s.bootMapped := rfl

@[simp] theorem State.request_map (s : State) (i : Source) : (s.request i).map = s.map := rfl

@[simp] theorem State.request_mem (s : State) (i : Source) : (s.request i).mem = s.mem := rfl

@[simp] theorem State.request_bootRom (s : State) (i : Source) :
    (s.request i).bootRom = s.bootRom := rfl

@[simp] theorem State.request_ppu (s : State) (i : Source) : (s.request i).ppu = s.ppu := rfl

@[simp] theorem State.request_pc0 (s : State) (i : Source) : (s.request i).pc0 = s.pc0 := rfl

@[simp] theorem State.request_stepCycles (s : State) (i : Source) :
    (s.request i).stepCycles = s.stepCycles := rfl

/-! Registers and scalars -/

@[simp] theorem Regs.get_set (g : Regs) (r : Reg8) (v : Byte) : (g.set r v).get r = v := by
  cases r <;> rfl

theorem Regs.get_set_ne (g : Regs) {r r' : Reg8} (v : Byte) (h : r' ≠ r) :
    (g.set r v).get r' = g.get r' := by
  cases r <;> cases r' <;> first | rfl | exact absurd rfl h

@[simp] theorem Regs.set_get (g : Regs) (r : Reg8) : g.set r (g.get r) = g := by
  cases r <;> rfl

@[simp] theorem IoRegs.get_set (g : IoRegs) (r : IoReg) (v : Byte) : (g.set r v).get r = v := by
  cases r <;> rfl

theorem IoRegs.get_set_ne (g : IoRegs) {r r' : IoReg} (v : Byte) (h : r' ≠ r) :
    (g.set r v).get r' = g.get r' := by
  cases r <;> first | (cases r' <;> first | rfl | exact absurd rfl h)

/-! Pairs and bytes -/

theorem hi8_append (h l : Byte) : hi8 (h ++ l) = h := by
  ext i hi
  simp only [hi8, BitVec.getElem_extractLsb', BitVec.getLsbD_append]
  simp [show ¬ 8 + i < 8 by omega, BitVec.getLsbD_eq_getElem hi]

theorem lo8_append (h l : Byte) : lo8 (h ++ l) = l := by
  ext i hi
  simp only [lo8, BitVec.getElem_extractLsb', BitVec.getLsbD_append]
  simp [hi]

theorem append_hi8_lo8 (v : Word) : hi8 v ++ lo8 v = v := by
  ext i hi
  rw [BitVec.getElem_append]
  split
  · simp [lo8, BitVec.getElem_extractLsb', BitVec.getLsbD_eq_getElem hi]
  · next h =>
    simp only [hi8, BitVec.getElem_extractLsb', show 8 + (i - 8) = i by omega]
    exact BitVec.getLsbD_eq_getElem hi

theorem cat16_hi8_lo8 (v : Word) : cat16 (hi8 v) (lo8 v) = v := append_hi8_lo8 v

end Sys2Proof.Machine
end

