-- ==== Sys2Proof/Laws/Bus.lean ====
section
/-! SUPPORT. Everything an access can do: reads, writes, the map and the two hooks. -/

namespace Sys2Proof.Machine

/-! ### Reads -/

/-- A read depends on the map and on what backs it. -/
theorem State.read8_congr {s t : State} (hm : t.map = s.map) (h1 : t.mem = s.mem)
    (h2 : t.bootRom = s.bootRom) (h3 : t.io = s.io) (a : Word) : t.read8 a = s.read8 a := by
  simp only [State.read8, hm]
  cases s.map.lookup a.toNat with
  | none => rfl
  | some m => obtain ⟨b, z, ro, st⟩ := m; cases st <;> simp [State.readStore, h1, h2, h3]

@[simp] theorem State.read8_setPc (s : State) (v a : Word) : (s.setPc v).read8 a = s.read8 a := rfl

@[simp] theorem State.read8_setSp (s : State) (v a : Word) : (s.setSp v).read8 a = s.read8 a := rfl

@[simp] theorem State.read8_setFlags (s : State) (f : Flags) (a : Word) :
    (s.setFlags f).read8 a = s.read8 a := rfl

@[simp] theorem State.read8_setReg (s : State) (r : Reg8) (v : Byte) (a : Word) :
    (s.setReg r v).read8 a = s.read8 a := rfl

theorem State.read8_eq_some {s : State} {a : Word} {m : Mapping} (h : s.map.lookup a.toNat = some m) :
    s.read8 a = some (s.readStore m.store a.toNat) := by simp [State.read8, h]

theorem State.read8_eq_none {s : State} {a : Word} (h : s.map.lookup a.toNat = none) :
    s.read8 a = none := by simp [State.read8, h]

theorem State.read8_isSome {s : State} {a : Word} {v : Byte} (h : s.read8 a = some v) :
    ∃ m, s.map.lookup a.toNat = some m ∧ s.readStore m.store a.toNat = v := by
  simpa [State.read8] using h

theorem State.lookup_none_of_read8 {s : State} {a : Word} (h : s.read8 a = none) :
    s.map.lookup a.toNat = none := by simpa [State.read8] using h

/-! ### Fetching and the accesses of an instruction -/

theorem State.withByte_some {s : State} {a : Word} {v : Byte} (h : s.read8 a = some v)
    (k : Byte → Result) : s.withByte a k = k v := by simp [State.withByte, h]

theorem State.withByte_none {s : State} {a : Word} (h : s.read8 a = none) (k : Byte → Result) :
    s.withByte a k = s.stopsAt a .read := by simp [State.withByte, h, State.stopsAt, State.fatal]

theorem State.fetch8_some {s : State} {v : Byte} (h : s.read8 s.pc = some v)
    (k : Byte → State → Result) : s.fetch8 k = k v (s.setPc (s.pc + 1)) := by simp [State.fetch8, h]

theorem State.fetch8_none {s : State} (h : s.read8 s.pc = none) (k : Byte → State → Result) :
    s.fetch8 k = s.stopsAt s.pc .fetch := by simp [State.fetch8, h, State.stopsAt, State.fatal]

theorem State.withStore_ok {s t : State} {a : Word} {v : Byte} (h : s.write8 a v = .ok t)
    (k : State → Result) : s.withStore a v k = k t := by simp [State.withStore, h]

theorem State.withStore_error {s : State} {a : Word} {v : Byte} {f : Fault} (h : s.write8 a v = .error f)
    (k : State → Result) : s.withStore a v k = .fault f := by simp [State.withStore, h]

/-! ### Writes -/

theorem State.write8_none {s : State} {a : Word} (v : Byte) (h : s.map.lookup a.toNat = none) :
    s.write8 a v = .error (s.fatal (.unmapped a .write s.pc0)) := by simp [State.write8, h]

theorem State.writeHook_of_not_hooked {s : State} {a : Word} (v : Byte) (h : hooked a = false) :
    s.writeHook a v = .ok s := by
  simp only [hooked, Bool.or_eq_false_iff, decide_eq_false_iff_not] at h
  simp only [State.writeHook, h.1, h.2, if_false]

/-- A write where no hook runs. -/
theorem State.write8_plain {s : State} {a : Word} {m : Mapping} (v : Byte)
    (h : s.map.lookup a.toNat = some m) (hh : hooked a = false) : s.write8 a v = .ok (s.stored m a v) := by
  simp only [State.write8, h, State.stored]
  split
  · rfl
  · exact State.writeHook_of_not_hooked v hh

theorem State.withStore_none {s : State} {a : Word} (v : Byte) (h : s.map.lookup a.toNat = none)
    (k : State → Result) : s.withStore a v k = s.stopsAt a .write := by
  simp [State.withStore, State.write8_none v h, State.stopsAt, State.fatal]

theorem State.withStore_plain {s : State} {a : Word} {m : Mapping} (v : Byte)
    (h : s.map.lookup a.toNat = some m) (hh : hooked a = false) (k : State → Result) :
    s.withStore a v k = k (s.stored m a v) := State.withStore_ok (State.write8_plain v h hh) k

/-- Everything a write can do but to answer a stop: nothing, or the byte stored and then the hook. -/
theorem State.write8_ok_cases {s t : State} {a : Word} {v : Byte} (h : s.write8 a v = .ok t) :
    ∃ m, s.map.lookup a.toNat = some m ∧
      ((m.readOnly = true ∧ t = s) ∨
        (m.readOnly = false ∧ (s.writeStore m.store a.toNat v).writeHook a v = .ok t)) := by
  unfold State.write8 at h
  split at h
  · cases h
  · next m hm =>
    refine ⟨m, hm, ?_⟩
    split at h
    · next hr => exact .inl ⟨hr, by injection h with h; exact h.symm⟩
    · next hr => exact .inr ⟨by simpa using hr, h⟩

/-- A hook is one of the two, or none. -/
theorem State.writeHook_cases {s : State} {a : Word} {v : Byte} {r : Except Fault State}
    (h : s.writeHook a v = r) :
    (a = 0xFF50 ∧ s.bootHook v = r) ∨ (a = 0xFF46 ∧ s.dmaHook v = r) ∨ (hooked a = false ∧ r = .ok s) := by
  unfold State.writeHook at h
  split at h
  · next h1 => exact .inl ⟨h1, h⟩
  · next h1 =>
    split at h
    · next h2 => exact .inr (.inl ⟨h2, h⟩)
    · next h2 => exact .inr (.inr ⟨by simp only [hooked, h1, h2, decide_false, Bool.or_self], h.symm⟩)

/-! ### What a write can change -/

/-- `t` differs from `s` at most in what the bus holds: the bytes, the scalars, the map. -/
def BusOnly (s t : State) : Prop :=
  t = { s with mem := t.mem, bootRom := t.bootRom, io := t.io, map := t.map, bootMapped := t.bootMapped }

theorem BusOnly.refl (s : State) : BusOnly s s := rfl

theorem BusOnly.trans {s t u : State} (h1 : BusOnly s t) (h2 : BusOnly t u) : BusOnly s u := by
  unfold BusOnly at *
  rw [h2, h1]

/-- The fields a write never changes. -/
theorem BusOnly.fields {s t : State} (h : BusOnly s t) :
    t.regs = s.regs ∧ t.flags = s.flags ∧ t.sp = s.sp ∧ t.pc = s.pc ∧ t.ime = s.ime ∧
      t.eiDelay = s.eiDelay ∧ t.halted = s.halted ∧ t.fault = s.fault ∧ t.refused = s.refused ∧
      t.cyclesTotal = s.cyclesTotal ∧ t.stopRequested = s.stopRequested ∧ t.ppu = s.ppu ∧
      t.pc0 = s.pc0 ∧ t.stepCycles = s.stepCycles := by
  unfold BusOnly at h
  rw [h]
  exact ⟨rfl, rfl, rfl, rfl, rfl, rfl, rfl, rfl, rfl, rfl, rfl, rfl, rfl, rfl⟩

theorem State.writeStore_busOnly (s : State) (st : Store) (a : Nat) (v : Byte) :
    BusOnly s (s.writeStore st a v) := by cases st <;> rfl

theorem State.stored_busOnly (s : State) (m : Mapping) (a : Word) (v : Byte) :
    BusOnly s (s.stored m a v) := by
  unfold State.stored
  split
  · exact BusOnly.refl s
  · exact s.writeStore_busOnly m.store a.toNat v

/-- What an operation of the bus can answer: a state that differs in what the bus holds, or a fatal error
over such a state. -/
def BusResult (s : State) : Except Fault State → Prop
  | .ok t => BusOnly s t
  | .error f => ∃ e t, f = t.fatal e ∧ BusOnly s t

theorem BusResult.mono {s t : State} (h : BusOnly s t) {r : Except Fault State} (hr : BusResult t r) :
    BusResult s r := by
  cases r with
  | ok u => exact h.trans hr
  | error f => obtain ⟨e, u, rfl, hu⟩ := hr; exact ⟨e, u, rfl, h.trans hu⟩

theorem State.store8_busResult (s : State) (a : Word) (v : Byte) : BusResult s (s.store8 a v) := by
  unfold State.store8
  split
  · exact ⟨_, s, rfl, BusOnly.refl s⟩
  · next m _ => exact s.stored_busOnly m a v

theorem State.bootHook_busResult (s : State) (v : Byte) : BusResult s (s.bootHook v) := by
  unfold State.bootHook
  split
  · unfold State.removeMapping
    cases h : s.map.remove 0x0000 0x0100 with
    | none => exact ⟨_, s, rfl, BusOnly.refl s⟩
    | some ms =>
      simp only [State.addMapping]
      cases h2 : ms.add (bootArea false) with
      | none => exact ⟨_, _, rfl, rfl⟩
      | some ms' => exact rfl
  · exact BusOnly.refl s

theorem State.dmaCopy_busResult (src : Word) (n i : Nat) (s : State) :
    BusResult s (State.dmaCopy src n i s) := by
  induction n generalizing i s with
  | zero => exact BusOnly.refl s
  | succ n ih =>
    unfold State.dmaCopy
    split
    · exact ⟨_, s, rfl, BusOnly.refl s⟩
    · next v _ =>
      have h := s.store8_busResult (0xFE00 + .ofNat 16 i) v
      cases hs : s.store8 (0xFE00 + .ofNat 16 i) v with
      | error f => rw [hs] at h; exact h
      | ok t => rw [hs] at h; exact BusResult.mono h (ih (i + 1) t)

theorem State.writeHook_busResult (s : State) (a : Word) (v : Byte) : BusResult s (s.writeHook a v) := by
  unfold State.writeHook
  split
  · exact s.bootHook_busResult v
  · split
    · exact State.dmaCopy_busResult _ _ _ s
    · exact BusOnly.refl s

/-- A write changes nothing but what the bus holds, whether it completes or stops. -/
theorem State.write8_busResult (s : State) (a : Word) (v : Byte) : BusResult s (s.write8 a v) := by
  unfold State.write8
  split
  · exact ⟨_, s, rfl, BusOnly.refl s⟩
  · next m _ =>
    split
    · exact BusOnly.refl s
    · exact BusResult.mono (s.writeStore_busOnly _ _ _) (State.writeHook_busResult _ a v)

theorem State.write8_busOnly {s t : State} {a : Word} {v : Byte} (h : s.write8 a v = .ok t) :
    BusOnly s t := by
  have := s.write8_busResult a v
  rwa [h] at this

/-! ### What an operation that completed did -/

theorem State.withByte_next {s t : State} {a : Word} {k : Byte → Result} (h : s.withByte a k = .next t) :
    ∃ v, s.read8 a = some v ∧ k v = .next t := by
  unfold State.withByte at h
  split at h
  · cases h
  · next v hv => exact ⟨v, hv, h⟩

theorem State.withStore_next {s t : State} {a : Word} {v : Byte} {k : State → Result}
    (h : s.withStore a v k = .next t) : ∃ u, s.write8 a v = .ok u ∧ k u = .next t := by
  unfold State.withStore at h
  split at h
  · cases h
  · next u hu => exact ⟨u, hu, h⟩

theorem State.fetch8_next {s t : State} {k : Byte → State → Result} (h : s.fetch8 k = .next t) :
    ∃ v, s.read8 s.pc = some v ∧ k v (s.setPc (s.pc + 1)) = .next t := by
  unfold State.fetch8 at h
  split at h
  · cases h
  · next v hv => exact ⟨v, hv, h⟩

/-- A push that completed made two writes, at SP - 1 and SP - 2, and left SP two lower. -/
theorem State.push16_next {s t : State} {v : Word} {k : State → Result} (h : s.push16 v k = .next t) :
    ∃ u w, (s.setSp (s.sp - 1)).write8 (s.sp - 1) (hi8 v) = .ok u ∧
      (u.setSp (s.sp - 2)).write8 (s.sp - 2) (lo8 v) = .ok w ∧ BusOnly (s.setSp (s.sp - 2)) w ∧
      k w = .next t := by
  obtain ⟨u, h1, h2⟩ := State.withStore_next h
  have e1 := State.write8_busOnly h1
  have e2 : u.sp = s.sp - 1 := e1.fields.2.2.1
  have e3 : s.sp - 1 - 1 = s.sp - 2 := by bv_omega
  rw [e2, e3] at h2
  obtain ⟨w, h3, h4⟩ := State.withStore_next h2
  refine ⟨u, w, h1, h3, BusOnly.trans ?_ (State.write8_busOnly h3), h4⟩
  unfold BusOnly at e1 ⊢
  rw [e1]
  rfl

/-- A pop that completed read two bytes and left SP two higher. -/
theorem State.pop16_next {s t : State} {k : Word → State → Result} (h : s.pop16 k = .next t) :
    ∃ lo hi, s.read8 s.sp = some lo ∧ s.read8 (s.sp + 1) = some hi ∧
      k (cat16 hi lo) (s.setSp (s.sp + 2)) = .next t := by
  obtain ⟨lo, h1, h2⟩ := State.withByte_next h
  obtain ⟨hi, h3, h4⟩ := State.withByte_next h2
  have e : s.sp + 1 + 1 = s.sp + 2 := by bv_omega
  refine ⟨lo, hi, h1, h3, ?_⟩
  rw [← e]
  exact h4

theorem State.done_next {s t : State} {n : Nat} (h : s.done n = .next t) : t = s.count n := by
  unfold State.done at h
  injection h with h
  exact h.symm

end Sys2Proof.Machine
end

