-- ==== Sys2Proof/Laws/Exec.lean ====
section
/-! SUPPORT. The meaning of every row over its kind: one equation, after which a statement about all
instructions is a statement about the kinds of `Shape`. The functions of `Shape` have many arms: rewrite
with `Shape.run.eq_def`, `Shape.cycles.eq_def` and so on, which costs little, where the equations of the
arms cost a great deal. -/

namespace Sys2Proof

open Machine

/-- The meaning of a kind of row, in the shared operations. -/
def Shape.run (sh : Shape) (s : State) : Result :=
  match sh with
  | .move r r' => loadReg r r' s
  | .imm r n => loadImm r n s
  | .load r p => loadFrom r (p.at s) p.cost s
  | .store p r => storeTo (p.at s) (s.reg r) p.cost s
  | .storeImm n => storeTo s.hl n 3 s
  | .loadStep up => loadAStep (if up then 1 else -1) s
  | .storeStep up => storeAStep (if up then 1 else -1) s
  | .pairImm p n => loadPair p n s
  | .storeSp a => Machine.storeSp a s
  | .spFromHl => (s.setSp s.hl).done 2
  | .push p => pushPair p s
  | .pop p => popPair p s
  | .alu op o => aluOperand op o s
  | .aluImm op n => aluA op n 2 s
  | .inc8 o => modify8 Machine.inc8 o s
  | .dec8 o => modify8 Machine.dec8 o s
  | .daa => execDaa s
  | .cpl => execCpl s
  | .scf => execScf s
  | .ccf => execCcf s
  | .addHl p => Machine.addHl p s
  | .inc16 p => stepPair p 1 s
  | .dec16 p => stepPair p (-1) s
  | .addSp e => spAddTo .sp e 4 s
  | .ldHlSp e => spAddTo .hl e 3 s
  | .rotA op => Machine.rotA op s
  | .shift op o => cbShift op o s
  | .bit b o => cbBit b.toNat o s
  | .res b o => cbRes b.toNat o s
  | .set b o => cbSet b.toNat o s
  | .jp none a => jumpTo a 4 s
  | .jp (some q) a => jumpIf q a 4 3 s
  | .jpHl => jumpTo s.hl 1 s
  | .jr none e => jumpTo (relTarget s.pc e) 3 s
  | .jr (some q) e => jumpIf q (relTarget s.pc e) 3 2 s
  | .call none a => callTo a 6 s
  | .call (some q) a => callIf q a s
  | .ret none => returnFrom 4 s
  | .ret (some q) => returnIf q s
  | .reti => execReti s
  | .rst t => callTo (rstTarget t) 4 s
  | .nop => execNop s
  | .halt => execHalt s
  | .stop => execStop s
  | .di => execDi s
  | .ei => execEi s
  | .cbPrefix => execPrefixCb s
  | .illegal op => Machine.illegal op s

theorem exec_eq_run (i : Instr) (s : State) : exec i s = i.shape.run s := by
  cases i <;> rfl

end Sys2Proof
end

