-- ==== Sys2Proof/Laws/Completed.lean ====
section
/-! SUPPORT. What each shared operation of the instructions did, where it answered a next state: cited
instead of unfolding the operation. -/

namespace Sys2Proof.Machine

theorem loadFrom_next {r : Reg8} {a : Word} {n : Nat} {s t : State} (h : loadFrom r a n s = .next t) :
    ∃ v, s.read8 a = some v ∧ t = (s.setReg r v).count n := by
  unfold loadFrom at h
  obtain ⟨v, hv, h⟩ := State.withByte_next h
  exact ⟨v, hv, State.done_next h⟩

theorem storeTo_next {a : Word} {v : Byte} {n : Nat} {s t : State} (h : storeTo a v n s = .next t) :
    ∃ u, s.write8 a v = .ok u ∧ t = u.count n := by
  unfold storeTo at h
  obtain ⟨u, hu, h⟩ := State.withStore_next h
  exact ⟨u, hu, State.done_next h⟩

theorem loadAStep_next {d : Word} {s t : State} (h : loadAStep d s = .next t) :
    ∃ v, s.read8 s.hl = some v ∧ t = ((s.setReg .a v).setPair .hl (s.hl + d)).count 2 := by
  unfold loadAStep at h
  obtain ⟨v, hv, h⟩ := State.withByte_next h
  exact ⟨v, hv, State.done_next h⟩

theorem storeAStep_next {d : Word} {s t : State} (h : storeAStep d s = .next t) :
    ∃ u, s.write8 s.hl s.regs.a = .ok u ∧ t = (u.setPair .hl (s.hl + d)).count 2 := by
  unfold storeAStep at h
  obtain ⟨u, hu, h⟩ := State.withStore_next h
  exact ⟨u, hu, State.done_next h⟩

theorem storeSp_next {a : Word} {s t : State} (h : storeSp a s = .next t) :
    ∃ u w, s.write8 a (lo8 s.sp) = .ok u ∧ u.write8 (a + 1) (hi8 s.sp) = .ok w ∧ t = w.count 5 := by
  unfold storeSp at h
  obtain ⟨u, hu, h⟩ := State.withStore_next h
  obtain ⟨w, hw, h⟩ := State.withStore_next h
  exact ⟨u, w, hu, hw, State.done_next h⟩

/-- The two writes of a push: the states between and after them. -/
def State.Pushed (s : State) (v : Word) (w : State) : Prop :=
  ∃ u, (s.setSp (s.sp - 1)).write8 (s.sp - 1) (hi8 v) = .ok u ∧
    (u.setSp (s.sp - 2)).write8 (s.sp - 2) (lo8 v) = .ok w

/-- A push changes SP and what the bus holds. -/
theorem State.Pushed.busOnly {s w : State} {v : Word} (h : s.Pushed v w) :
    BusOnly (s.setSp (s.sp - 2)) w := by
  obtain ⟨u, h1, h2⟩ := h
  have e1 := State.write8_busOnly h1
  refine BusOnly.trans ?_ (State.write8_busOnly h2)
  unfold BusOnly at e1 ⊢
  rw [e1]
  rfl

theorem State.push16_pushed {s t : State} {v : Word} {k : State → Result} (h : s.push16 v k = .next t) :
    ∃ w, s.Pushed v w ∧ k w = .next t := by
  obtain ⟨u, w, h1, h2, -, h3⟩ := State.push16_next h
  exact ⟨w, ⟨u, h1, h2⟩, h3⟩

theorem pushPair_next {p : StackPair} {s t : State} (h : pushPair p s = .next t) :
    ∃ w, s.Pushed (s.stackPair p) w ∧ t = w.count 4 := by
  unfold pushPair at h
  obtain ⟨w, hw, h⟩ := State.push16_pushed h
  exact ⟨w, hw, State.done_next h⟩

theorem callTo_next {a : Word} {n : Nat} {s t : State} (h : callTo a n s = .next t) :
    ∃ w, s.Pushed s.pc w ∧ t = (w.setPc a).count n := by
  unfold callTo at h
  obtain ⟨w, hw, h⟩ := State.push16_pushed h
  exact ⟨w, hw, State.done_next h⟩

theorem callIf_next {q : Cond} {a : Word} {s t : State} (h : callIf q a s = .next t) :
    (s.flags.holds q = true ∧ ∃ w, s.Pushed s.pc w ∧ t = (w.setPc a).count 6) ∨
      (s.flags.holds q = false ∧ t = s.count 3) := by
  unfold callIf at h
  split at h
  · next hq => exact .inl ⟨hq, callTo_next h⟩
  · next hq => exact .inr ⟨by simpa using hq, State.done_next h⟩

theorem popPair_next {p : StackPair} {s t : State} (h : popPair p s = .next t) :
    ∃ lo hi, s.read8 s.sp = some lo ∧ s.read8 (s.sp + 1) = some hi ∧
      t = ((s.setSp (s.sp + 2)).setStackPair p (cat16 hi lo)).count 3 := by
  unfold popPair at h
  obtain ⟨lo, hi, h1, h2, h⟩ := State.pop16_next h
  exact ⟨lo, hi, h1, h2, State.done_next h⟩

theorem returnFrom_next {n : Nat} {s t : State} (h : returnFrom n s = .next t) :
    ∃ lo hi, s.read8 s.sp = some lo ∧ s.read8 (s.sp + 1) = some hi ∧
      t = ((s.setSp (s.sp + 2)).setPc (cat16 hi lo)).count n := by
  unfold returnFrom at h
  obtain ⟨lo, hi, h1, h2, h⟩ := State.pop16_next h
  exact ⟨lo, hi, h1, h2, State.done_next h⟩

theorem returnIf_next {q : Cond} {s t : State} (h : returnIf q s = .next t) :
    (s.flags.holds q = true ∧ ∃ lo hi, s.read8 s.sp = some lo ∧ s.read8 (s.sp + 1) = some hi ∧
        t = ((s.setSp (s.sp + 2)).setPc (cat16 hi lo)).count 5) ∨
      (s.flags.holds q = false ∧ t = s.count 2) := by
  unfold returnIf at h
  split at h
  · next hq => exact .inl ⟨hq, returnFrom_next h⟩
  · next hq => exact .inr ⟨by simpa using hq, State.done_next h⟩

theorem execReti_next {s t : State} (h : execReti s = .next t) :
    ∃ lo hi, s.read8 s.sp = some lo ∧ s.read8 (s.sp + 1) = some hi ∧
      t = ({ s.setSp (s.sp + 2) with pc := cat16 hi lo, ime := true, eiDelay := 0 } : State).count 4 := by
  unfold execReti State.returnFromInterrupt at h
  obtain ⟨lo, hi, h1, h2, h⟩ := State.pop16_next h
  exact ⟨lo, hi, h1, h2, State.done_next h⟩

theorem jumpIf_next {q : Cond} {a : Word} {m n : Nat} {s t : State} (h : jumpIf q a m n s = .next t) :
    (s.flags.holds q = true ∧ t = (s.setPc a).count m) ∨ (s.flags.holds q = false ∧ t = s.count n) := by
  unfold jumpIf jumpTo at h
  split at h
  · next hq => exact .inl ⟨hq, State.done_next h⟩
  · next hq => exact .inr ⟨by simpa using hq, State.done_next h⟩

theorem aluA_next {op : AluOp} {v : Byte} {n : Nat} {s t : State} (h : aluA op v n s = .next t) :
    t = ((s.setReg .a (aluResult op s.regs.a v s.flags.c).1).setFlags
      (aluResult op s.regs.a v s.flags.c).2).count n := State.done_next h

/-- An operand form gives a byte: the register's, or the one at HL. -/
def Gives (o : Operand8) (s : State) (v : Byte) : Prop :=
  match o with
  | .reg r => v = s.reg r
  | .atHL => s.read8 s.hl = some v

theorem aluOperand_next {op : AluOp} {o : Operand8} {s t : State} (h : aluOperand op o s = .next t) :
    ∃ v, Gives o s v ∧ aluA op v (o.cost 1 2) s = .next t := by
  cases o with
  | reg r => exact ⟨_, rfl, h⟩
  | atHL =>
    unfold aluOperand at h
    obtain ⟨v, hv, h⟩ := State.withByte_next h
    exact ⟨v, hv, h⟩

/-- What an operation that changes its operand and the flags did: a register changed, or a write at HL on
the state that has the new flags. -/
def Modified (o : Operand8) (s : State) (w : Byte) (fl : Flags) (n : Nat) (t : State) : Prop :=
  match o with
  | .reg r => t = ((s.setReg r w).setFlags fl).count n
  | .atHL => ∃ u, (s.setFlags fl).write8 s.hl w = .ok u ∧ t = u.count n

theorem modify8_next {f : Byte → Flags → Byte × Flags} {o : Operand8} {s t : State}
    (h : modify8 f o s = .next t) :
    ∃ v, Gives o s v ∧ Modified o s (f v s.flags).1 (f v s.flags).2 (o.cost 1 3) t := by
  cases o with
  | reg r => exact ⟨_, rfl, State.done_next h⟩
  | atHL =>
    unfold modify8 at h
    obtain ⟨v, hv, h⟩ := State.withByte_next h
    obtain ⟨u, hu, h⟩ := State.withStore_next h
    exact ⟨v, hv, u, hu, State.done_next h⟩

theorem cbModify_next {f : Byte → Byte} {g : Byte → Flags} {o : Operand8} {s t : State}
    (h : cbModify f g o s = .next t) :
    ∃ v, Gives o s v ∧ Modified o s (f v) (g v) (o.cost 2 4) t := by
  cases o with
  | reg r => exact ⟨_, rfl, State.done_next h⟩
  | atHL =>
    unfold cbModify at h
    obtain ⟨v, hv, h⟩ := State.withByte_next h
    obtain ⟨u, hu, h⟩ := State.withStore_next h
    exact ⟨v, hv, u, hu, State.done_next h⟩

theorem cbShift_next {op : ShiftOp} {o : Operand8} {s t : State} (h : cbShift op o s = .next t) :
    ∃ v, Gives o s v ∧ Modified o s (shiftResult op v s.flags.c).1
      (shiftFlags (shiftResult op v s.flags.c).1 (shiftResult op v s.flags.c).2) (o.cost 2 4) t := by
  unfold cbShift at h
  exact cbModify_next h

theorem cbRes_next {b : Nat} {o : Operand8} {s t : State} (h : cbRes b o s = .next t) :
    ∃ v, Gives o s v ∧ Modified o s (v &&& ~~~ bit8 b) s.flags (o.cost 2 4) t := by
  unfold cbRes at h
  exact cbModify_next h

theorem cbSet_next {b : Nat} {o : Operand8} {s t : State} (h : cbSet b o s = .next t) :
    ∃ v, Gives o s v ∧ Modified o s (v ||| bit8 b) s.flags (o.cost 2 4) t := by
  unfold cbSet at h
  exact cbModify_next h

theorem cbBit_next {b : Nat} {o : Operand8} {s t : State} (h : cbBit b o s = .next t) :
    ∃ v, Gives o s v ∧ t = (s.setFlags (bitFlags v b s.flags)).count (o.cost 2 3) := by
  cases o with
  | reg r => exact ⟨_, rfl, State.done_next h⟩
  | atHL =>
    unfold cbBit at h
    obtain ⟨v, hv, h⟩ := State.withByte_next h
    exact ⟨v, hv, State.done_next h⟩

/-- `Modified` changes the operand's register, the flags, the count and what the bus holds. -/
theorem Modified.fields {o : Operand8} {s t : State} {w : Byte} {fl : Flags} {n : Nat}
    (h : Modified o s w fl n t) :
    (∀ r, r ∉ o.regs → t.regs.get r = s.regs.get r) ∧ t.flags = fl ∧ t.sp = s.sp ∧ t.pc = s.pc ∧
      t.ime = s.ime ∧ t.eiDelay = s.eiDelay ∧ t.halted = s.halted ∧ t.fault = s.fault ∧
      t.refused = s.refused ∧ t.cyclesTotal = s.cyclesTotal ∧ t.stopRequested = s.stopRequested ∧
      t.ppu = s.ppu ∧ t.pc0 = s.pc0 ∧ t.stepCycles = s.stepCycles + n := by
  cases o with
  | reg r =>
    obtain rfl : t = _ := h
    refine ⟨fun r' hr => Regs.get_set_ne _ _ (by simpa [Operand8.regs] using hr), rfl, rfl, rfl, rfl, rfl,
      rfl, rfl, rfl, rfl, rfl, rfl, rfl, rfl⟩
  | atHL =>
    obtain ⟨u, hu, rfl⟩ := h
    have hb := (State.write8_busOnly hu).fields
    simp only [State.setFlags_regs, State.setFlags_flags, State.setFlags_sp, State.setFlags_pc,
      State.setFlags_ime, State.setFlags_eiDelay, State.setFlags_halted, State.setFlags_fault,
      State.setFlags_refused, State.setFlags_cyclesTotal, State.setFlags_stopRequested,
      State.setFlags_ppu, State.setFlags_pc0, State.setFlags_stepCycles] at hb
    simp [hb]

end Sys2Proof.Machine
end

