-- ==== Sys2Proof/Laws/Decode.lean ====
section
/-! SUPPORT. What the encoding of an instruction looks like to the fetch. -/

namespace Sys2Proof

/-- The encoding of a whole instruction other than STOP is an opcode and the operand bytes the opcode
takes, from which the instruction is assembled. -/
theorem Instr.encode_shape (i : Instr) (h : i.WellFormed = true) :
    i = .stop ∨
    (∃ op, encode i = [op] ∧ operandBytes op = 0 ∧ assemble op 0 0 = i) ∨
    (∃ op b, encode i = [op, b] ∧ operandBytes op = 1 ∧ assemble op b 0 = i) ∨
    (∃ op b1 b2, encode i = [op, b1, b2] ∧ operandBytes op = 2 ∧ assemble op b1 b2 = i) := by
  have h3 : ∀ (f : Word → Instr) (op : Byte) (w : Word),
      encode (f w) = [op, lo8 w, hi8 w] → operandBytes op = 2 →
      (∀ b1 b2, assemble op b1 b2 = f (cat16 b2 b1)) →
      ∃ op b1 b2, encode (f w) = [op, b1, b2] ∧ operandBytes op = 2 ∧ assemble op b1 b2 = f w :=
    fun f op w h1 h2 h3 => ⟨op, _, _, h1, h2, by rw [h3, Machine.cat16_hi8_lo8]⟩
  cases i
  case stop => exact .inl rfl
  case prefixCb => exact absurd h (by decide)
  all_goals first
    | exact .inr (.inl ⟨_, rfl, rfl, rfl⟩)
    | exact .inr (.inr (.inl ⟨_, _, rfl, rfl, rfl⟩))
    | exact .inr (.inr (.inr (h3 _ _ _ rfl rfl fun _ _ => rfl)))

theorem Instr.fetchedBytes_eq {i : Instr} (h : i ≠ .stop) : i.fetchedBytes = (encode i).length := by
  simp [Instr.fetchedBytes, h]

end Sys2Proof
end

