-- ==== Sys2Proof/Laws/Map.lean ====
section
/-! SUPPORT. The set of mappings: order, lookup, insertion and removal. -/

namespace Sys2Proof.Machine

theorem Mapping.contains_iff {m : Mapping} {a : Nat} :
    m.contains a = true ↔ m.base ≤ a ∧ a < m.base + m.size := by
  simp [Mapping.contains]

theorem Mapping.overlaps_iff {m n : Mapping} :
    m.overlaps n = true ↔ m.base < n.base + n.size ∧ n.base < m.base + m.size := by
  simp [Mapping.overlaps]

theorem Mapping.isAt_iff {m : Mapping} {b z : Nat} : m.isAt b z = true ↔ m.base = b ∧ m.size = z := by
  simp [Mapping.isAt]

/-- A mapping R81 allows is not empty and ends inside the address space. -/
theorem Mapping.valid_bounds {m : Mapping} (h : m.valid = true) :
    1 ≤ m.size ∧ m.base + m.size ≤ 0x10000 := by
  simp only [Mapping.valid, Bool.and_eq_true, decide_eq_true_eq] at h
  exact h.1

theorem Mapping.scalar_size {m : Mapping} {r : IoReg} (h : m.valid = true) (hs : m.store = .scalar r) :
    m.size = 1 := by
  simp only [Mapping.valid, hs, Bool.and_eq_true, decide_eq_true_eq] at h
  exact h.2

theorem BusMap.sorted_cons {m : Mapping} {ms : BusMap} :
    BusMap.Sorted (m :: ms) = true ↔ (∀ n ∈ ms, m.base + m.size ≤ n.base) ∧ BusMap.Sorted ms = true := by
  simp [BusMap.Sorted]

/-- Two mappings of a sorted set that share an address are the same. -/
theorem BusMap.eq_of_contains {ms : BusMap} (h : ms.Sorted = true) {m n : Mapping} (hm : m ∈ ms)
    (hn : n ∈ ms) {a : Nat} (ha : m.contains a = true) (hb : n.contains a = true) : m = n := by
  rw [Mapping.contains_iff] at ha hb
  induction ms with
  | nil => cases hm
  | cons k rest ih =>
    obtain ⟨h1, h2⟩ := BusMap.sorted_cons.1 h
    rcases List.mem_cons.1 hm with rfl | hm' <;> rcases List.mem_cons.1 hn with rfl | hn'
    · rfl
    · have := h1 n hn'; omega
    · have := h1 m hm'; omega
    · exact ih h2 hm' hn'

theorem BusMap.lookup_some {ms : BusMap} {a : Nat} {m : Mapping} (h : ms.lookup a = some m) :
    m ∈ ms ∧ m.contains a = true := by
  unfold BusMap.lookup at h
  exact ⟨List.mem_of_find?_eq_some h, by simpa using List.find?_some h⟩

/-- The mapping of a sorted set that contains an address is the one `lookup` finds. -/
theorem BusMap.lookup_of_mem {ms : BusMap} (h : ms.Sorted = true) {m : Mapping} (hm : m ∈ ms) {a : Nat}
    (ha : m.contains a = true) : ms.lookup a = some m := by
  cases hl : ms.lookup a with
  | none => exact absurd ha (List.find?_eq_none.1 hl m hm)
  | some n =>
    obtain ⟨h1, h2⟩ := BusMap.lookup_some hl
    rw [BusMap.eq_of_contains h hm h1 ha h2]

theorem BusMap.lookup_eq_none {ms : BusMap} {a : Nat} :
    ms.lookup a = none ↔ ∀ m ∈ ms, ¬ m.contains a = true := List.find?_eq_none

/-! ### Insertion and removal -/

theorem BusMap.mem_insert {ms : BusMap} {m n : Mapping} : n ∈ ms.insert m ↔ n = m ∨ n ∈ ms := by
  induction ms with
  | nil => simp [BusMap.insert]
  | cons k rest ih =>
    unfold BusMap.insert
    split
    · simp
    · simp only [List.mem_cons, ih]
      tauto

theorem BusMap.sorted_insert {ms : BusMap} {m : Mapping} (h : ms.Sorted = true) (hv : m.valid = true)
    (hvs : ∀ n ∈ ms, n.valid = true) (ho : ∀ n ∈ ms, n.overlaps m = false) :
    (ms.insert m).Sorted = true := by
  induction ms with
  | nil => rfl
  | cons k rest ih =>
    obtain ⟨h1, h2⟩ := BusMap.sorted_cons.1 h
    have hk := ho k (by simp)
    have hb := Mapping.valid_bounds hv
    have hkb := Mapping.valid_bounds (hvs k (by simp))
    rw [Bool.eq_false_iff, Ne, Mapping.overlaps_iff] at hk
    unfold BusMap.insert
    split
    · refine BusMap.sorted_cons.2 ⟨fun n hn => ?_, h⟩
      rcases List.mem_cons.1 hn with rfl | hn
      · omega
      · have := h1 n hn; omega
    · refine BusMap.sorted_cons.2
        ⟨fun n hn => ?_, ih h2 (fun n hn => hvs n (by simp [hn])) fun n hn => ho n (by simp [hn])⟩
      rcases BusMap.mem_insert.1 hn with rfl | hn
      · omega
      · exact h1 n hn

/-- `add_mapping` of a range that overlaps nothing. -/
theorem BusMap.add_of_apart {ms : BusMap} {m : Mapping} (h : ∀ n ∈ ms, n.overlaps m = false) :
    ms.add m = some (ms.insert m) := by
  unfold BusMap.add
  rw [if_neg]
  simpa using h

/-- `add_mapping` over a mapping of the set. -/
theorem BusMap.add_of_overlap {ms : BusMap} {m n : Mapping} (hn : n ∈ ms) (h : n.overlaps m = true) :
    ms.add m = none := by
  unfold BusMap.add
  rw [if_pos]
  simpa using ⟨n, hn, h⟩

/-- Mappings of a sorted set have bases of their own. -/
theorem BusMap.base_inj {ms : BusMap} (h : ms.Sorted = true) (hv : ∀ n ∈ ms, n.valid = true)
    {m n : Mapping} (hm : m ∈ ms) (hn : n ∈ ms) (he : m.base = n.base) : m = n := by
  have h1 := Mapping.valid_bounds (hv m hm)
  have h2 := Mapping.valid_bounds (hv n hn)
  exact BusMap.eq_of_contains h hm hn (a := m.base) (Mapping.contains_iff.2 (by omega))
    (Mapping.contains_iff.2 (by omega))

theorem BusMap.sorted_sublist {ms ms' : BusMap} (h : ms.Sorted = true) (hs : ms'.Sublist ms) :
    ms'.Sorted = true := by
  induction hs with
  | slnil => rfl
  | cons a hs ih => exact ih (BusMap.sorted_cons.1 h).2
  | cons_cons a hs ih =>
    obtain ⟨h1, h2⟩ := BusMap.sorted_cons.1 h
    exact BusMap.sorted_cons.2 ⟨fun n hn => h1 n (hs.subset hn), ih h2⟩

theorem BusMap.sorted_nodup {ms : BusMap} (h : ms.Sorted = true) (hv : ∀ n ∈ ms, n.valid = true) :
    ms.Nodup := by
  induction ms with
  | nil => exact List.nodup_nil
  | cons k rest ih =>
    obtain ⟨h1, h2⟩ := BusMap.sorted_cons.1 h
    refine List.nodup_cons.2 ⟨fun hk => ?_, ih h2 fun n hn => hv n (by simp [hn])⟩
    have := h1 k hk
    have := Mapping.valid_bounds (hv k (by simp))
    omega

/-- Erasing the mapping of a base and a size takes that one away and no other. -/
theorem BusMap.mem_eraseP {ms : BusMap} (h : ms.Sorted = true) (hv : ∀ n ∈ ms, n.valid = true)
    {m : Mapping} (hm : m ∈ ms) (n : Mapping) :
    n ∈ ms.eraseP (·.isAt m.base m.size) ↔ n ∈ ms ∧ n ≠ m := by
  induction ms with
  | nil => cases hm
  | cons k rest ih =>
    obtain ⟨h1, h2⟩ := BusMap.sorted_cons.1 h
    have hnk := (List.nodup_cons.1 (BusMap.sorted_nodup h hv)).1
    by_cases hk : k.isAt m.base m.size = true
    · have : k = m := BusMap.base_inj h hv (by simp) hm (Mapping.isAt_iff.1 hk).1
      subst this
      rw [List.eraseP_cons_of_pos (p := fun x : Mapping => x.isAt k.base k.size) hk]
      constructor
      · intro hn
        exact ⟨by simp [hn], fun e => hnk (e ▸ hn)⟩
      · rintro ⟨hn, hne⟩
        rcases List.mem_cons.1 hn with rfl | hn
        · exact absurd rfl hne
        · exact hn
    · have hkm : k ≠ m := by rintro rfl; exact hk (Mapping.isAt_iff.2 ⟨rfl, rfl⟩)
      have hm' : m ∈ rest := by
        rcases List.mem_cons.1 hm with rfl | h
        · exact absurd rfl hkm
        · exact h
      rw [List.eraseP_cons_of_neg (p := fun x : Mapping => x.isAt m.base m.size) hk]
      simp only [List.mem_cons]
      rw [ih h2 (fun n hn => hv n (by simp [hn])) hm']
      constructor
      · rintro (rfl | ⟨h, h'⟩)
        · exact ⟨.inl rfl, hkm⟩
        · exact ⟨.inr h, h'⟩
      · rintro ⟨rfl | h, h'⟩
        · exact .inl rfl
        · exact .inr ⟨h, h'⟩

/-! ### The invariant of the map -/

/-- What `mapOk` says, part by part. -/
theorem State.mapOk_iff {s : State} :
    s.mapOk = true ↔ s.map.Sorted = true ∧ (∀ m ∈ s.map, m.valid = true) ∧
      (∀ m ∈ s.map, m.atHome = true) ∧ bootArea s.bootMapped ∈ s.map ∧
      ∀ m ∈ alwaysMapped, m ∈ s.map := by
  simp [State.mapOk, and_assoc]

/-- A mapping every reset builds is the one an access to its addresses finds. -/
theorem State.lookup_fixed {s : State} (h : s.mapOk = true) {m : Mapping} (hm : m ∈ alwaysMapped)
    {a : Nat} (ha : m.contains a = true) : s.map.lookup a = some m :=
  BusMap.lookup_of_mem (State.mapOk_iff.1 h).1 ((State.mapOk_iff.1 h).2.2.2.2 m hm) ha

theorem State.lookup_boot {s : State} (h : s.mapOk = true) {a : Nat} (ha : a < 0x100) :
    s.map.lookup a = some (bootArea s.bootMapped) := by
  refine BusMap.lookup_of_mem (State.mapOk_iff.1 h).1 (State.mapOk_iff.1 h).2.2.2.1 ?_
  exact Mapping.contains_iff.2 ⟨Nat.zero_le _, by simpa [bootArea] using ha⟩

/-- A scalar stands at its own address, one byte wide. -/
theorem State.scalar_home {s : State} (h : s.mapOk = true) {a : Nat} {m : Mapping} {r : IoReg}
    (hm : s.map.lookup a = some m) (hs : m.store = .scalar r) :
    a = r.addr ∧ (m.readOnly = decide (r = .ly)) := by
  obtain ⟨h1, h2, h3, -, -⟩ := State.mapOk_iff.1 h
  obtain ⟨hmem, hc⟩ := BusMap.lookup_some hm
  have hh := h3 m hmem
  have hz := Mapping.scalar_size (h2 m hmem) hs
  simp only [Mapping.atHome, hs, Bool.and_eq_true, decide_eq_true_eq] at hh
  rw [Mapping.contains_iff] at hc
  exact ⟨by omega, hh.2⟩

/-- The boot ROM is read-only and stands at 0x0000-0x00FF. -/
theorem State.bootRom_home {s : State} (h : s.mapOk = true) {a : Nat} {m : Mapping}
    (hm : s.map.lookup a = some m) (hs : m.store = .bootRom) : a < 0x100 ∧ m.readOnly = true := by
  obtain ⟨-, -, h3, -, -⟩ := State.mapOk_iff.1 h
  obtain ⟨hmem, hc⟩ := BusMap.lookup_some hm
  have hh := h3 m hmem
  simp only [Mapping.atHome, hs, Bool.and_eq_true, decide_eq_true_eq] at hh
  rw [Mapping.contains_iff] at hc
  exact ⟨by omega, hh.1.1⟩

theorem IoReg.addr_inj {r r' : IoReg} (h : r.addr = r'.addr) : r = r' := by
  cases r <;> first | (cases r' <;> first | rfl | exact absurd h (by decide))

end Sys2Proof.Machine
end

