-- ==== Sys2Proof/Laws/Keeps.lean ====
section
/-! SUPPORT. What the operations of the bus keep: the canonical form of the storage, and the map. -/

namespace Sys2Proof.Machine

/-! ### The canonical form -/

theorem State.storageOk_iff {s : State} :
    s.storageOk = true ↔ s.mem.wf = true ∧ s.bootRom.wf = true ∧ s.ppu.front.wf = true ∧
      s.ppu.back.wf = true := by
  simp [State.storageOk, and_assoc]

theorem State.storageOk_congr {s t : State} (h1 : t.mem = s.mem) (h2 : t.bootRom = s.bootRom)
    (h3 : t.ppu = s.ppu) : t.storageOk = s.storageOk := by
  simp only [State.storageOk, h1, h2, h3]

theorem State.mapOk_congr {s t : State} (h1 : t.map = s.map) (h2 : t.bootMapped = s.bootMapped) :
    t.mapOk = s.mapOk := by
  simp only [State.mapOk, h1, h2]

theorem State.ppuOk_congr {s t : State} (h1 : t.io = s.io) (h2 : t.ppu = s.ppu) : t.ppuOk = s.ppuOk := by
  simp only [State.ppuOk, State.engineOk, State.lineOk, State.offOk, h1, h2]

/-- Storing a byte keeps the canonical form. -/
theorem State.writeStore_storageOk {s : State} (h : s.storageOk = true) (st : Store) (a : Nat)
    (v : Byte) : (s.writeStore st a v).storageOk = true := by
  obtain ⟨h1, h2, h3, h4⟩ := State.storageOk_iff.1 h
  cases st with
  | memory | platform => exact State.storageOk_iff.2 ⟨Memory.wf_write h1 a v, h2, h3, h4⟩
  | bootRom => exact State.storageOk_iff.2 ⟨h1, Memory.wf_write h2 a v, h3, h4⟩
  | scalar r => exact h

theorem State.stored_storageOk {s : State} (h : s.storageOk = true) (m : Mapping) (a : Word) (v : Byte) :
    (s.stored m a v).storageOk = true := by
  unfold State.stored
  split
  · exact h
  · exact State.writeStore_storageOk h _ _ _

theorem State.store8_ok {s t : State} {a : Word} {v : Byte} (h : s.store8 a v = .ok t) :
    ∃ m, s.map.lookup a.toNat = some m ∧ t = s.stored m a v := by
  unfold State.store8 at h
  split at h
  · cases h
  · next m hm => exact ⟨m, hm, by injection h with h; exact h.symm⟩

theorem State.stored_map (s : State) (m : Mapping) (a : Word) (v : Byte) :
    (s.stored m a v).map = s.map ∧ (s.stored m a v).bootMapped = s.bootMapped := by
  unfold State.stored
  split <;> simp

theorem State.dmaCopy_map {src : Word} {n i : Nat} {s t : State} (h : State.dmaCopy src n i s = .ok t) :
    t.map = s.map ∧ t.bootMapped = s.bootMapped := by
  induction n generalizing i s with
  | zero =>
    unfold State.dmaCopy at h
    injection h with h
    subst h
    exact ⟨rfl, rfl⟩
  | succ n ih =>
    unfold State.dmaCopy at h
    split at h
    · cases h
    · next v _ =>
      split at h
      · cases h
      · next u hu =>
        obtain ⟨m, -, rfl⟩ := State.store8_ok hu
        have := ih h
        exact ⟨this.1.trans (s.stored_map m _ v).1, this.2.trans (s.stored_map m _ v).2⟩

theorem State.dmaCopy_storageOk {src : Word} {n i : Nat} {s t : State} (hs : s.storageOk = true)
    (h : State.dmaCopy src n i s = .ok t) : t.storageOk = true := by
  induction n generalizing i s with
  | zero =>
    unfold State.dmaCopy at h
    injection h with h
    subst h
    exact hs
  | succ n ih =>
    unfold State.dmaCopy at h
    split at h
    · cases h
    · split at h
      · cases h
      · next u hu =>
        obtain ⟨m, -, rfl⟩ := State.store8_ok hu
        exact ih (State.stored_storageOk hs m _ _) h

/-! ### BootHook -/

/-- The map BootHook leaves: the boot ROM's mapping out, the cartridge's in (R95). -/
def State.unbooted (s : State) : BusMap := BusMap.insert (s.map.eraseP (·.isAt 0x0000 0x0100)) (bootArea false)

theorem State.bootHook_keeps {s : State} {v : Byte} (h : v = 0 ∨ s.bootMapped = false) :
    s.bootHook v = .ok s := by
  unfold State.bootHook
  rw [if_neg]
  rintro ⟨h1, h2⟩
  rcases h with h | h
  · exact h1 h
  · rw [h] at h2; cases h2

/-- The erased map: every mapping but the one at 0x0000-0x00FF. -/
theorem State.mem_erased {s : State} (h : s.mapOk = true) (n : Mapping) :
    n ∈ s.map.eraseP (·.isAt 0x0000 0x0100) ↔ n ∈ s.map ∧ n ≠ bootArea s.bootMapped := by
  obtain ⟨h1, h2, -, h4, -⟩ := State.mapOk_iff.1 h
  exact BusMap.mem_eraseP h1 h2 h4 n

theorem State.mem_unbooted {s : State} (h : s.mapOk = true) (n : Mapping) :
    n ∈ s.unbooted ↔ n = bootArea false ∨ (n ∈ s.map ∧ n ≠ bootArea s.bootMapped) := by
  unfold State.unbooted
  rw [BusMap.mem_insert, State.mem_erased h]

/-- No other mapping reaches below 0x0100. -/
theorem State.above_boot {s : State} (h : s.mapOk = true) {n : Mapping} (hn : n ∈ s.map)
    (hne : n ≠ bootArea s.bootMapped) : 0x100 ≤ n.base := by
  obtain ⟨h1, h2, -, h4, -⟩ := State.mapOk_iff.1 h
  have hb := Mapping.valid_bounds (h2 n hn)
  by_contra hlt
  refine hne (BusMap.eq_of_contains h1 hn h4 (a := n.base) (Mapping.contains_iff.2 (by omega))
    (Mapping.contains_iff.2 ?_))
  simp only [bootArea]
  omega

theorem State.erased_apart {s : State} (h : s.mapOk = true) {n : Mapping}
    (hn : n ∈ s.map.eraseP (·.isAt 0x0000 0x0100)) : n.overlaps (bootArea false) = false := by
  obtain ⟨h1, h2⟩ := (State.mem_erased h n).1 hn
  have := State.above_boot h h1 h2
  rw [Bool.eq_false_iff, Ne, Mapping.overlaps_iff]
  simp only [bootArea]
  omega

/-- BootHook where it acts: it cannot fail. -/
theorem State.bootHook_acts {s : State} (h : s.mapOk = true) {v : Byte} (hv : v ≠ 0)
    (hb : s.bootMapped = true) :
    s.bootHook v = .ok { s with map := s.unbooted, bootMapped := false } := by
  obtain ⟨-, -, -, h4, -⟩ := State.mapOk_iff.1 h
  have h5 : s.map.remove 0x0000 0x0100 = some (s.map.eraseP (·.isAt 0x0000 0x0100)) := by
    unfold BusMap.remove
    rw [if_pos (List.any_eq_true.2 ⟨_, h4, by simp [Mapping.isAt, bootArea]⟩)]
  have h6 : BusMap.add (s.map.eraseP (·.isAt 0x0000 0x0100)) (bootArea false) = some s.unbooted := by
    unfold BusMap.add
    rw [if_neg]
    · rfl
    · simp only [List.any_eq_true, not_exists, not_and]
      intro n hn ho
      rw [State.erased_apart h hn] at ho
      cases ho
  unfold State.bootHook
  rw [if_pos ⟨hv, hb⟩]
  simp only [State.removeMapping, h5, State.addMapping, h6]

theorem State.unbooted_mapOk {s : State} (h : s.mapOk = true) :
    ({ s with map := s.unbooted, bootMapped := false } : State).mapOk = true := by
  obtain ⟨h1, h2, h3, h4, h5⟩ := State.mapOk_iff.1 h
  have hin : ∀ n ∈ s.map.eraseP (·.isAt 0x0000 0x0100), n ∈ s.map := fun n hn => ((State.mem_erased h n).1 hn).1
  refine State.mapOk_iff.2 ⟨?_, ?_, ?_, ?_, ?_⟩
  · exact BusMap.sorted_insert (BusMap.sorted_sublist h1 List.eraseP_sublist) (by decide)
      (fun n hn => h2 n (hin n hn)) fun n hn => State.erased_apart h hn
  · intro n hn
    rcases (State.mem_unbooted h n).1 hn with rfl | ⟨hn, -⟩
    · decide
    · exact h2 n hn
  · intro n hn
    rcases (State.mem_unbooted h n).1 hn with rfl | ⟨hn, -⟩
    · decide
    · exact h3 n hn
  · exact (State.mem_unbooted h _).2 (.inl rfl)
  · intro n hn
    refine (State.mem_unbooted h n).2 (.inr ⟨h5 n hn, ?_⟩)
    rintro rfl
    revert hn
    cases s.bootMapped <;> decide

/-! ### A write -/

theorem State.writeHook_keeps {s t : State} {a : Word} {v : Byte} (hm : s.mapOk = true)
    (hs : s.storageOk = true) (h : s.writeHook a v = .ok t) : t.mapOk = true ∧ t.storageOk = true := by
  rcases State.writeHook_cases h with ⟨-, h⟩ | ⟨-, h⟩ | ⟨-, h⟩
  · by_cases hc : v = 0 ∨ s.bootMapped = false
    · rw [State.bootHook_keeps hc] at h
      injection h with h
      subst h
      exact ⟨hm, hs⟩
    · rw [State.bootHook_acts hm (fun h => hc (.inl h)) (by simpa using fun h => hc (.inr h))] at h
      injection h with h
      subst h
      exact ⟨State.unbooted_mapOk hm, hs⟩
  · exact ⟨(State.mapOk_congr (State.dmaCopy_map h).1 (State.dmaCopy_map h).2).trans hm,
      State.dmaCopy_storageOk hs h⟩
  · injection h with h
    subst h
    exact ⟨hm, hs⟩

/-- A write keeps the map as R81 and R100 say, and the storage in its canonical form. -/
theorem State.write8_keeps {s t : State} {a : Word} {v : Byte} (hm : s.mapOk = true)
    (hs : s.storageOk = true) (h : s.write8 a v = .ok t) : t.mapOk = true ∧ t.storageOk = true := by
  obtain ⟨m, -, ⟨-, rfl⟩ | ⟨-, h⟩⟩ := State.write8_ok_cases h
  · exact ⟨hm, hs⟩
  · exact State.writeHook_keeps ((State.mapOk_congr (by simp) (by simp)).trans hm)
      (State.writeStore_storageOk hs _ _ _) h

/-! ### Reads after a store -/

/-- The byte stored through a mapping that takes it reads back. -/
theorem State.read8_writeStore_same {s : State} (hs : s.storageOk = true) {a : Word} {m : Mapping}
    (v : Byte) (hm : s.map.lookup a.toNat = some m) :
    (s.writeStore m.store a.toNat v).read8 a = some v := by
  obtain ⟨h1, h2, -, -⟩ := State.storageOk_iff.1 hs
  rw [State.read8_eq_some (m := m) (by simpa using hm)]
  cases m.store with
  | memory | platform => exact congrArg some (Memory.read_write_same h1 _ _)
  | bootRom => exact congrArg some (Memory.read_write_same h2 _ _)
  | scalar r => exact congrArg some (IoRegs.get_set _ _ _)

/-- No other address reads anything new. -/
theorem State.read8_writeStore_other {s : State} (hmap : s.mapOk = true) (hs : s.storageOk = true)
    {a b : Word} {m : Mapping} (v : Byte) (hm : s.map.lookup a.toNat = some m) (hb : b ≠ a) :
    (s.writeStore m.store a.toNat v).read8 b = s.read8 b := by
  obtain ⟨h1, h2, -, -⟩ := State.storageOk_iff.1 hs
  have hne : b.toNat ≠ a.toNat := fun h => hb (BitVec.eq_of_toNat_eq h)
  cases hl : s.map.lookup b.toNat with
  | none => rw [State.read8_eq_none (by simpa using hl), State.read8_eq_none hl]
  | some n =>
    rw [State.read8_eq_some (m := n) (by simpa using hl), State.read8_eq_some hl]
    congr 1
    cases hst : m.store with
    | memory | platform =>
      cases n.store with
      | memory | platform => exact Memory.read_write_other h1 v hne
      | bootRom => rfl
      | scalar r => rfl
    | bootRom =>
      cases n.store with
      | memory | platform => rfl
      | bootRom => exact Memory.read_write_other h2 v hne
      | scalar r => rfl
    | scalar r =>
      cases hsn : n.store with
      | memory | platform => rfl
      | bootRom => rfl
      | scalar r' =>
        refine IoRegs.get_set_ne _ _ fun he => hne ?_
        rw [(State.scalar_home hmap hl hsn).1, (State.scalar_home hmap hm hst).1, he]

/-! ### The OAM copy -/

theorem oam_toNat {i : Nat} (hi : i < 160) : (0xFE00 + BitVec.ofNat 16 i : Word).toNat = 0xFE00 + i := by
  simp [BitVec.toNat_add]
  omega

theorem State.lookup_oam {s : State} (hm : s.mapOk = true) {i : Nat} (hi : i < 160) :
    s.map.lookup (0xFE00 + BitVec.ofNat 16 i : Word).toNat = some ⟨0xFE00, 0xA0, false, .memory⟩ := by
  refine State.lookup_fixed hm (by decide) (Mapping.contains_iff.2 ?_)
  rw [oam_toNat hi]
  dsimp only
  omega

/-- A byte of the copy always lands. -/
theorem State.store8_oam {s : State} (hm : s.mapOk = true) {i : Nat} (hi : i < 160) (v : Byte) :
    s.store8 (0xFE00 + BitVec.ofNat 16 i) v =
      .ok (s.writeStore .memory (0xFE00 + BitVec.ofNat 16 i : Word).toNat v) := by
  unfold State.store8
  rw [State.lookup_oam hm hi]
  rfl

/-- A copy that completed changed no byte outside OAM. -/
theorem State.dmaCopy_frame {src : Word} {n i : Nat} {s t : State} (hm : s.mapOk = true)
    (hs : s.storageOk = true) (hi : i + n ≤ 160) (h : State.dmaCopy src n i s = .ok t) :
    (∃ m, t = { s with mem := m }) ∧ ∀ a, ¬ inRange 0xFE00 0xFE9F a → t.read8 a = s.read8 a := by
  induction n generalizing i s with
  | zero =>
    unfold State.dmaCopy at h
    injection h with h
    subst h
    exact ⟨⟨_, rfl⟩, fun a _ => rfl⟩
  | succ n ih =>
    unfold State.dmaCopy at h
    split at h
    · cases h
    · next v hv =>
      rw [State.store8_oam hm (by omega)] at h
      obtain ⟨⟨m, e⟩, h2⟩ := ih (i := i + 1)
        (s := s.writeStore .memory (0xFE00 + BitVec.ofNat 16 i : Word).toNat v)
        ((State.mapOk_congr rfl rfl).trans hm) (State.writeStore_storageOk hs _ _ _) (by omega) h
      refine ⟨⟨m, e.trans rfl⟩, fun a ha => ?_⟩
      rw [h2 a ha]
      refine State.read8_writeStore_other (m := ⟨0xFE00, 0xA0, false, .memory⟩) hm hs v
        (State.lookup_oam hm (by omega)) ?_
      rintro rfl
      refine ha ⟨?_, ?_⟩ <;> (rw [oam_toNat (by omega)]; simp; try omega)

/-! ### BootHook's reads -/

theorem inRange_low {a : Word} (h : ¬ inRange 0x0000 0x00FF a) : 0x100 ≤ a.toNat := by
  unfold inRange at h
  simp at h
  omega

/-- Above 0x00FF the map BootHook leaves finds what it found before. -/
theorem State.lookup_unbooted {s : State} (hm : s.mapOk = true) {a : Nat} (ha : 0x100 ≤ a) :
    s.unbooted.lookup a = s.map.lookup a := by
  have h6 := State.mapOk_iff.1 (State.unbooted_mapOk hm)
  cases hl : s.map.lookup a with
  | some n =>
    obtain ⟨q1, q2⟩ := BusMap.lookup_some hl
    refine BusMap.lookup_of_mem h6.1 ((State.mem_unbooted hm n).2 (.inr ⟨q1, ?_⟩)) q2
    rintro rfl
    rw [Mapping.contains_iff] at q2
    simp [bootArea] at q2
    omega
  | none =>
    refine BusMap.lookup_eq_none.2 fun m hmm hc => ?_
    rcases (State.mem_unbooted hm m).1 hmm with rfl | ⟨q, -⟩
    · rw [Mapping.contains_iff] at hc
      simp [bootArea] at hc
      omega
    · exact BusMap.lookup_eq_none.1 hl m q hc

/-! ### Everything a write that completed can change -/

theorem State.write8_frame {s t : State} {a : Word} {v : Byte} (hm : s.mapOk = true)
    (hs : s.storageOk = true) (h : s.write8 a v = .ok t) :
    (∀ b, b ≠ a → (a = 0xFF46 → ¬ inRange 0xFE00 0xFE9F b) →
      (a = 0xFF50 → ¬ inRange 0x0000 0x00FF b) → t.read8 b = s.read8 b) ∧
    (a ≠ 0xFF50 → t.map = s.map ∧ t.bootMapped = s.bootMapped) ∧ t.bootRom = s.bootRom ∧
    (∀ m, s.map.lookup a.toNat = some m → m.readOnly = false → t.read8 a = some v) := by
  have hcs := State.write8_ok_cases h
  clear h
  obtain ⟨m, hl, ⟨hr, rfl⟩ | ⟨hr, h⟩⟩ := hcs
  · refine ⟨fun b _ _ _ => rfl, fun _ => ⟨rfl, rfl⟩, rfl, fun m' h1 h2 => ?_⟩
    rw [hl] at h1
    injection h1 with h1
    subst h1
    rw [hr] at h2
    cases h2
  · have hm1 : (s.writeStore m.store a.toNat v).mapOk = true :=
      (State.mapOk_congr (by simp) (by simp)).trans hm
    have hs1 := State.writeStore_storageOk hs m.store a.toNat v
    have hsame := State.read8_writeStore_same hs v hl
    have hoth : ∀ b, b ≠ a → (s.writeStore m.store a.toNat v).read8 b = s.read8 b :=
      fun b hb => State.read8_writeStore_other hm hs v hl hb
    have hbr : (s.writeStore m.store a.toNat v).bootRom = s.bootRom := by
      cases hst : m.store with
      | memory | platform => rfl
      | scalar r => rfl
      | bootRom => rw [(State.bootRom_home hm hl hst).2] at hr; cases hr
    have hmp : (s.writeStore m.store a.toNat v).map = s.map := by simp
    have hbm : (s.writeStore m.store a.toNat v).bootMapped = s.bootMapped := by simp
    generalize s.writeStore m.store a.toNat v = u at *
    have hcs := State.writeHook_cases h
    clear h
    rcases hcs with ⟨ha, h⟩ | ⟨ha, h⟩ | ⟨ha, h⟩
    · subst ha
      by_cases hc : v = 0 ∨ u.bootMapped = false
      · rw [State.bootHook_keeps hc] at h
        injection h with h
        subst h
        exact ⟨fun b hb _ _ => hoth b hb, fun h => absurd rfl h, hbr, fun _ _ _ => hsame⟩
      · rw [State.bootHook_acts hm1 (fun h => hc (.inl h)) (by simpa using fun h => hc (.inr h))] at h
        injection h with h
        subst h
        have hk : ∀ b : Word, ¬ inRange 0x0000 0x00FF b →
            ({ u with map := u.unbooted, bootMapped := false } : State).read8 b = u.read8 b := by
          intro b hb
          unfold State.read8
          dsimp only
          rw [State.lookup_unbooted hm1 (inRange_low hb)]
          rfl
        refine ⟨fun b hb _ h3 => ?_, fun h => absurd rfl h, hbr, fun _ _ _ => ?_⟩
        · rw [← hoth b hb]
          exact hk b (h3 rfl)
        · rw [← hsame]
          exact hk _ (by simp [inRange])
    · subst ha
      obtain ⟨⟨m2, e⟩, h2⟩ := State.dmaCopy_frame hm1 hs1 (by omega) h
      refine ⟨fun b hb h3 _ => ?_, fun _ => ?_, ?_, fun _ _ _ => ?_⟩
      · rw [h2 b (h3 rfl), hoth b hb]
      · subst e
        exact ⟨hmp, hbm⟩
      · subst e
        exact hbr
      · rw [h2 _ (by simp [inRange]), hsame]
    · injection h with h
      subst h
      exact ⟨fun b hb _ _ => hoth b hb, fun _ => ⟨hmp, hbm⟩, hbr, fun _ _ _ => hsame⟩

end Sys2Proof.Machine
end

