-- ==== Sys2Proof/Laws/Forms.lean ====
section
/-! SUPPORT. What the shared operations answer, in the forms of Safety.lean, and the rows that the field
constructors (`Instr.mkAlu` and its like) name. -/

namespace Sys2Proof.Machine

/-! ### Accesses -/

theorem LoadsByte.of_loadFrom {i : Instr} {s : State} {r : Reg8} {a : Word} {n : Nat}
    (h : exec i s = loadFrom r a n s) : LoadsByte i s r a n := by
  refine ⟨fun v hv => ?_, fun hv => ?_⟩
  · rw [h, loadFrom, State.withByte_some hv]
    rfl
  · rw [h, loadFrom, State.withByte_none hv]

/-- A write leaves the count of the step. -/
theorem State.write8_stepCycles {s t : State} {a : Word} {v : Byte} (h : s.write8 a v = .ok t) :
    t.stepCycles = s.stepCycles := by
  have := State.write8_busOnly h
  unfold BusOnly at this
  rw [this]

theorem State.stored_stepCycles (s : State) (m : Mapping) (a : Word) (v : Byte) :
    (s.stored m a v).stepCycles = s.stepCycles := by
  have := s.stored_busOnly m a v
  unfold BusOnly at this
  rw [this]

theorem StoresByte.of_storeTo {i : Instr} {s : State} {a : Word} {v : Byte} {n : Nat}
    (h : exec i s = storeTo a v n s) : StoresByte i s a v n := by
  refine ⟨fun m hm hh => ?_, fun hm => ?_, fun t ht => ?_, fun f hf => ?_⟩
  · rw [h, storeTo, State.withStore_plain v hm hh]
    simp only [State.done, State.count, State.stored_stepCycles]
  · rw [h, storeTo, State.withStore_none v hm]
  · rw [h, storeTo, State.withStore_ok ht]
    simp only [State.done, State.count, State.write8_stepCycles ht]
  · rw [h, storeTo, State.withStore_error hf]

theorem ModifiesHL.of_accesses {i : Instr} {s : State} {f : Byte → Byte} {g : Byte → Flags} {n : Nat}
    (h : exec i s = s.withByte s.hl fun v =>
      (s.setFlags (g v)).withStore s.hl (f v) fun t => t.done n) : ModifiesHL i s f g n := by
  refine ⟨?_, ?_, ?_, ?_⟩
  · intro v m h1 h2 h3
    rw [h, State.withByte_some h1, State.withStore_plain (s := s.setFlags (g v)) (m := m) _ h2 h3,
      State.done, State.count, State.stored_stepCycles]
    simp only [State.stored]
    split
    · rfl
    · cases m.store <;> rfl
  · intro h1
    rw [h, State.withByte_none h1]
  · intro v t h1 h2
    rw [h, State.withByte_some h1, State.withStore_ok (s := s.setFlags (g v)) h2, State.done,
      State.count, State.write8_stepCycles h2]
  · intro v e h1 h2
    rw [h, State.withByte_some h1, State.withStore_error (s := s.setFlags (g v)) h2]

/-! ### The stack -/

theorem State.setSp_stored (s : State) (p : Word) (m : Mapping) (a : Word) (v : Byte) :
    (s.setSp p).stored m a v = (s.stored m a v).setSp p := by
  unfold State.stored
  split
  · rfl
  · cases m.store <;> rfl

theorem sub_one_one (a : Word) : a - 1 - 1 = a - 2 := by bv_omega

/-! Everything `push16` can do, for PUSH, CALL, RST and the dispatch of an interrupt. -/

theorem State.push16_plain {s : State} {v : Word} {m m' : Mapping} (k : State → Result)
    (h1 : s.map.lookup (s.sp - 1).toNat = some m) (h2 : s.map.lookup (s.sp - 2).toNat = some m')
    (h3 : hooked (s.sp - 1) = false) (h4 : hooked (s.sp - 2) = false) :
    s.push16 v k = k (((s.stored m (s.sp - 1) (hi8 v)).stored m' (s.sp - 2) (lo8 v)).setSp (s.sp - 2)) := by
  rw [State.push16, State.withStore_plain (s := s.setSp (s.sp - 1)) (m := m) _ h1 h3,
    State.setSp_stored]
  simp only [State.setSp_sp, sub_one_one]
  rw [show ((s.stored m (s.sp - 1) (hi8 v)).setSp (s.sp - 1)).setSp (s.sp - 2) =
      (s.stored m (s.sp - 1) (hi8 v)).setSp (s.sp - 2) from rfl,
    State.withStore_plain (m := m') _ (by rw [State.setSp_map, (s.stored_map m _ _).1]; exact h2) h4,
    State.setSp_stored]

theorem State.push16_none_fst {s : State} {v : Word} (k : State → Result)
    (h : s.map.lookup (s.sp - 1).toNat = none) :
    s.push16 v k = (s.setSp (s.sp - 1)).stopsAt (s.sp - 1) .write := by
  rw [State.push16, State.withStore_none (s := s.setSp (s.sp - 1)) _ h]

theorem State.push16_none_snd {s : State} {v : Word} {m : Mapping} (k : State → Result)
    (h1 : s.map.lookup (s.sp - 1).toNat = some m) (h3 : hooked (s.sp - 1) = false)
    (h2 : s.map.lookup (s.sp - 2).toNat = none) :
    s.push16 v k = ((s.stored m (s.sp - 1) (hi8 v)).setSp (s.sp - 2)).stopsAt (s.sp - 2) .write := by
  rw [State.push16, State.withStore_plain (s := s.setSp (s.sp - 1)) (m := m) _ h1 h3,
    State.setSp_stored]
  simp only [State.setSp_sp, sub_one_one]
  rw [State.withStore_none _ (by rw [State.setSp_map, State.setSp_map, (s.stored_map m _ _).1]; exact h2)]
  rfl

theorem State.push16_ok {s t u : State} {v : Word} (k : State → Result)
    (h1 : (s.setSp (s.sp - 1)).write8 (s.sp - 1) (hi8 v) = .ok t)
    (h2 : (t.setSp (s.sp - 2)).write8 (s.sp - 2) (lo8 v) = .ok u) : s.push16 v k = k u := by
  have e : t.sp = s.sp - 1 := (State.write8_busOnly h1).fields.2.2.1
  rw [State.push16, State.withStore_ok h1, e, sub_one_one, State.withStore_ok h2]

theorem State.push16_error_fst {s : State} {v : Word} {f : Fault} (k : State → Result)
    (h : (s.setSp (s.sp - 1)).write8 (s.sp - 1) (hi8 v) = .error f) : s.push16 v k = .fault f := by
  rw [State.push16, State.withStore, h]

theorem State.push16_error_snd {s t : State} {v : Word} {f : Fault} (k : State → Result)
    (h1 : (s.setSp (s.sp - 1)).write8 (s.sp - 1) (hi8 v) = .ok t)
    (h2 : (t.setSp (s.sp - 2)).write8 (s.sp - 2) (lo8 v) = .error f) : s.push16 v k = .fault f := by
  have e : t.sp = s.sp - 1 := (State.write8_busOnly h1).fields.2.2.1
  rw [State.push16, State.withStore_ok h1, e, sub_one_one, State.withStore, h2]

theorem Pushes.of_push16 {i : Instr} {s : State} {v target : Word} {n : Nat}
    (h : exec i s = s.push16 v fun t => (t.setPc target).done n) : Pushes i s v target n := by
  refine ⟨fun m m' h1 h2 h3 h4 => ?_, fun h1 => ?_, fun m h1 h3 h2 => ?_, fun t u h1 h2 => ?_,
    fun f h1 => ?_, fun t f h1 h2 => ?_⟩
  · rw [h, State.push16_plain _ h1 h2 h3 h4]
    simp only [State.done, State.count, State.setPc, State.setSp, State.stored_stepCycles]
  · rw [h, State.push16_none_fst _ h1]
    rfl
  · rw [h, State.push16_none_snd _ h1 h3 h2]
    rfl
  · rw [h, State.push16_ok _ h1 h2]
    have e1 := State.write8_stepCycles h1
    have e2 := State.write8_stepCycles h2
    dsimp only at e1 e2
    rw [e1] at e2
    simp only [State.done, State.count, State.setPc, e2]
  · rw [h, State.push16_error_fst _ h1]
  · rw [h, State.push16_error_snd _ h1 h2]

/-- A push that leaves PC alone. -/
theorem Pushes.of_push16_same {i : Instr} {s : State} {v : Word} {n : Nat}
    (h : exec i s = s.push16 v fun t => t.done n) : Pushes i s v s.pc n := by
  apply Pushes.of_push16
  rw [h]
  unfold State.push16 State.withStore
  cases h1 : (s.setSp (s.sp - 1)).write8 (s.sp - 1) (hi8 v) with
  | error f => rfl
  | ok t =>
    dsimp only
    cases h2 : (t.setSp (t.sp - 1)).write8 (t.sp - 1) (lo8 v) with
    | error f => rfl
    | ok u =>
      have e1 : t.pc = s.pc := (State.write8_busOnly h1).fields.2.2.2.1
      have e2 : u.pc = t.pc := (State.write8_busOnly h2).fields.2.2.2.1
      dsimp only
      rw [show u.setPc s.pc = u by rw [← e1, ← e2]; rfl]

theorem Pops.of_pop16 {i : Instr} {s : State} {out : Word → State} (k : Word → State → Result)
    (h : exec i s = s.pop16 k)
    (hk : ∀ v, k v (s.setSp (s.sp + 2)) = .next { out v with sp := s.sp + 2 }) : Pops i s out := by
  have e : s.sp + 1 + 1 = s.sp + 2 := by bv_omega
  refine ⟨?_, ?_, ?_⟩
  · intro lo hi h1 h2
    rw [h, State.pop16, State.withByte_some h1]
    dsimp only
    rw [State.withByte_some (s := s.setSp (s.sp + 1)) (a := (s.setSp (s.sp + 1)).sp) h2, ← hk, ← e]
    rfl
  · intro h1
    rw [h, State.pop16, State.withByte_none h1]
  · intro lo h1 h2
    rw [h, State.pop16, State.withByte_some h1]
    dsimp only
    rw [State.withByte_none (s := s.setSp (s.sp + 1)) (a := (s.setSp (s.sp + 1)).sp) h2]
    rfl

/-! ### Arithmetic -/

theorem exec_mkAlu (op : AluOp) (o : Operand8) (s : State) :
    exec (Instr.mkAlu op o) s = aluOperand op o s := by
  cases op <;> rcases o with r | _ <;> (try cases r) <;> rfl

theorem exec_mkAluImm (op : AluOp) (n : Byte) (s : State) :
    exec (Instr.mkAluImm op n) s = aluA op n 2 s := by
  cases op <;> rfl

/-- An accumulator operation whose result and flags are `res` and `fl`. -/
theorem AluForms.of_result {op : AluOp} {res : Byte → Byte → Byte → Byte} {fl : Byte → Byte → Byte → Flags}
    (h : ∀ a v c, aluResult op a v c = (res a v (if c then 1 else 0), fl a v (if c then 1 else 0))) :
    AluForms op res fl := by
  intro s
  have key : ∀ v n, aluA op v n s = .next
      { s with regs := s.regs.set .a (res s.regs.a v s.carryByte), flags := fl s.regs.a v s.carryByte,
               stepCycles := s.stepCycles + n } := by
    intro v n
    simp only [aluA, h]
    rfl
  refine ⟨fun r => ?_, fun v hv => ?_, fun hv => ?_, fun n => ?_⟩
  · rw [exec_mkAlu]
    exact key _ _
  · rw [exec_mkAlu]
    exact (State.withByte_some hv _).trans (key _ _)
  · rw [exec_mkAlu]
    exact State.withByte_none hv _
  · rw [exec_mkAluImm]
    exact key _ _

theorem ofNat_add8 (a b : Byte) (n : Nat) :
    BitVec.ofNat 8 (a.toNat + b.toNat + n) = a + b + BitVec.ofNat 8 n := by
  apply BitVec.eq_of_toNat_eq
  simp [BitVec.toNat_add, Nat.add_mod]

theorem ofInt_sub8 (a b : Byte) (n : Nat) :
    BitVec.ofInt 8 ((a.toNat : Int) - b.toNat - n) = a - b - BitVec.ofNat 8 n := by
  apply BitVec.eq_of_toNat_eq
  simp [BitVec.toNat_sub, BitVec.toNat_ofInt]
  omega

theorem ofNat_add16 (a b : Word) : BitVec.ofNat 16 (a.toNat + b.toNat) = a + b := by
  apply BitVec.eq_of_toNat_eq
  simp

/-- A sign-extended offset added to a word. -/
theorem add_sext16 (p : Word) (e : Byte) : p + sext16 e = BitVec.ofInt 16 ((p.toNat : Int) + e.toInt) := by
  apply BitVec.eq_of_toNat_eq
  simp [sext16, BitVec.toNat_add, BitVec.toNat_ofInt, BitVec.toNat_signExtend,
    BitVec.toInt_eq_toNat_cond, BitVec.msb_eq_decide]
  split <;> omega

/-! ### Rotates, shifts and bits -/

theorem exec_mkShift (op : ShiftOp) (o : Operand8) (s : State) :
    exec (Instr.mkShift op o) s = cbShift op o s := by
  cases op <;> rcases o with r | _ <;> (try cases r) <;> rfl

/-- The shifts, bit by bit and by whole words. -/
theorem shiftResult_eq (op : ShiftOp) (v : Byte) (c : Bool) :
    shiftResult op v c = (shifted op v (if c then 1 else 0), shiftedOut op v) := by
  have : ∀ (op : ShiftOp), ∀ (v : Byte) (c : Bool),
      shiftResult op v c = (shifted op v (if c then 1 else 0), shiftedOut op v) := by
    intro op
    cases op <;> decide
  exact this op v c

theorem bit3_cases (b : BitVec 3) :
    b = 0 ∨ b = 1 ∨ b = 2 ∨ b = 3 ∨ b = 4 ∨ b = 5 ∨ b = 6 ∨ b = 7 := by
  revert b
  decide

theorem exec_mkBit (b : BitVec 3) (o : Operand8) (s : State) :
    exec (Instr.mkBit b o) s = cbBit b.toNat o s := by
  rcases bit3_cases b with rfl | rfl | rfl | rfl | rfl | rfl | rfl | rfl <;>
    rcases o with r | _ <;> (try cases r) <;> rfl

theorem exec_mkRes (b : BitVec 3) (o : Operand8) (s : State) :
    exec (Instr.mkRes b o) s = cbRes b.toNat o s := by
  rcases bit3_cases b with rfl | rfl | rfl | rfl | rfl | rfl | rfl | rfl <;>
    rcases o with r | _ <;> (try cases r) <;> rfl

theorem exec_mkSet (b : BitVec 3) (o : Operand8) (s : State) :
    exec (Instr.mkSet b o) s = cbSet b.toNat o s := by
  rcases bit3_cases b with rfl | rfl | rfl | rfl | rfl | rfl | rfl | rfl <;>
    rcases o with r | _ <;> (try cases r) <;> rfl

/-! ### Conditions and control transfers -/

theorem condHolds_some (q : Cond) (s : State) : condHolds (some q) s = s.flags.holds q := by
  cases q <;> simp [condHolds, Flags.holds]

theorem exec_mkJpIf (q : Cond) (a : Word) (s : State) : exec (Instr.mkJpIf q a) s = jumpIf q a 4 3 s := by
  cases q <;> rfl

theorem exec_mkJrIf (q : Cond) (e : Byte) (s : State) :
    exec (Instr.mkJrIf q e) s = jumpIf q (relTarget s.pc e) 3 2 s := by
  cases q <;> rfl

theorem exec_mkCallIf (q : Cond) (a : Word) (s : State) : exec (Instr.mkCallIf q a) s = callIf q a s := by
  cases q <;> rfl

theorem exec_mkRetIf (q : Cond) (s : State) : exec (Instr.mkRetIf q) s = returnIf q s := by
  cases q <;> rfl

theorem exec_mkRst (t : BitVec 3) (s : State) : exec (Instr.mkRst t) s = callTo (rstTarget t) 4 s := by
  rcases bit3_cases t with rfl | rfl | rfl | rfl | rfl | rfl | rfl | rfl <;> rfl

/-- The CB row of a byte is the meaning of the instruction the CB table gives it. -/
theorem cbRow_eq (c : Byte) (s : State) : cbRow c s = exec (decodeCb c) s := by
  have key : ∀ n < 256, cbRow (.ofNat 8 n) s = exec (decodeCb (.ofNat 8 n)) s := by
    intro n hn
    interval_cases n <;> rfl
  have := key c.toNat c.isLt
  rwa [BitVec.ofNat_toNat, BitVec.setWidth_eq] at this

end Sys2Proof.Machine
end

