-- ==== Sys2Proof/Laws/Host.lean ====
section
/-! SUPPORT. What a run of moves does with one more move, and what a reset of the host answers. -/

namespace Sys2Proof.Machine

@[simp] theorem State.moves_nil (s : State) : s.moves [] = .next s := rfl

/-- A run, seen from its last move. -/
theorem State.moves_append (s : State) (ms ms' : List Move) :
    s.moves (ms ++ ms') = ms'.foldl afterMove (s.moves ms) := List.foldl_append

theorem State.moves_concat (s : State) (ms : List Move) (m : Move) :
    s.moves (ms ++ [m]) = afterMove (s.moves ms) m := State.moves_append s ms [m]

@[simp] theorem afterMove_next (s : State) (m : Move) : afterMove (.next s) m = s.move m := rfl

@[simp] theorem afterMove_fault_reset (e : FatalError) (s : State) (p : ResetParams) :
    afterMove (.fault (.fatal e s)) (.reset p) = s.hostReset p := rfl

@[simp] theorem afterMove_stop_reset (s : State) (p : ResetParams) :
    afterMove (.refused (.stop s)) (.reset p) = s.hostReset p := rfl

/-- Nothing but a reset goes on after a fault. -/
theorem afterMove_fault {m : Move} (h : ∀ p, m ≠ .reset p) (f : Fault) :
    afterMove (.fault f) m = .fault f := by
  cases m with
  | reset p => exact absurd rfl (h p)
  | _ => cases f; rfl

/-- Nothing but a reset goes on after a refusal. -/
theorem afterMove_refused {m : Move} (h : ∀ p, m ≠ .reset p) (r : Refusal) :
    afterMove (.refused r) m = .refused r := by
  cases m with
  | reset p => exact absurd rfl (h p)
  | _ => cases r <;> rfl

/-- A move that answers a next state: from a state, or a reset from a terminal one. -/
theorem afterMove_eq_next {r : Result} {m : Move} {t : State} (h : afterMove r m = .next t) :
    (∃ s, r = Host.Outcome.next s ∧ s.move m = .next t) ∨ ∃ (s : State) (p : ResetParams), m = .reset p ∧ s.hostReset p = .next t := by
  cases r with
  | next s => exact .inl ⟨s, rfl, h⟩
  | fault f =>
    cases m with
    | reset p => cases f with | fatal e s => exact .inr ⟨s, p, rfl, h⟩
    | _ => rw [afterMove_fault (by simp)] at h; cases h
  | refused r =>
    cases m with
    | reset p =>
      cases r with
      | stop s => exact .inr ⟨s, p, rfl, h⟩
      | _ => cases h
    | _ => rw [afterMove_refused (by simp)] at h; cases h

/-- A reset of the host that answers a next state is the reset of its parameters. -/
theorem State.hostReset_eq_next {s t : State} {p : ResetParams} (h : s.hostReset p = .next t) :
    ∃ w, resetWith p = .ok (t, w) := by
  unfold State.hostReset at h
  split at h
  · next t' w hr =>
    injection h with h
    subst h
    exact ⟨w, hr⟩
  · cases h

end Sys2Proof.Machine
end

