-- ==== Sys2Proof/Laws/Ppu.lean ====
section
/-! SUPPORT. What a tick can change, and the pace of PixelTransfer. -/

namespace Sys2Proof.Machine

/-! ### What a tick can change -/

/-- `t` differs from `s` at most in the PPU's own state and in LY, STAT and IF. -/
def PpuOnly (s t : State) : Prop :=
  t = { s with
    io := { s.io with ly := t.io.ly, stat := t.io.stat, iflag := t.io.iflag }, ppu := t.ppu }

theorem PpuOnly.refl (s : State) : PpuOnly s s := rfl

theorem PpuOnly.trans {s t u : State} (h1 : PpuOnly s t) (h2 : PpuOnly t u) : PpuOnly s u := by
  unfold PpuOnly at *
  rw [h2, h1]

/-- The fields a tick never changes. -/
theorem PpuOnly.fields {s t : State} (h : PpuOnly s t) :
    t.regs = s.regs ∧ t.flags = s.flags ∧ t.sp = s.sp ∧ t.pc = s.pc ∧ t.ime = s.ime ∧
      t.eiDelay = s.eiDelay ∧ t.halted = s.halted ∧ t.fault = s.fault ∧ t.refused = s.refused ∧
      t.cyclesTotal = s.cyclesTotal ∧ t.stopRequested = s.stopRequested ∧ t.map = s.map ∧
      t.bootMapped = s.bootMapped ∧ t.mem = s.mem ∧ t.bootRom = s.bootRom ∧ t.pc0 = s.pc0 ∧
      t.stepCycles = s.stepCycles := by
  unfold PpuOnly at h
  rw [h]
  exact ⟨rfl, rfl, rfl, rfl, rfl, rfl, rfl, rfl, rfl, rfl, rfl, rfl, rfl, rfl, rfl, rfl, rfl⟩

/-- The registers a tick never changes: the ones the picture is made from. -/
theorem PpuOnly.io {s t : State} (h : PpuOnly s t) :
    t.io.lcdc = s.io.lcdc ∧ t.io.lyc = s.io.lyc ∧ t.io.bgp = s.io.bgp ∧ t.io.ie = s.io.ie := by
  unfold PpuOnly at h
  rw [h]
  exact ⟨rfl, rfl, rfl, rfl⟩

theorem State.fetcherStep_only (s : State) : PpuOnly s s.fetcherStep := by
  unfold State.fetcherStep
  cases s.ppu.fstate with
  | pushToFifo => dsimp only; split <;> rfl
  | _ => rfl

theorem State.outputPixel_only (s : State) : PpuOnly s s.outputPixel := by
  unfold State.outputPixel
  cases s.ppu.fifo <;> rfl

theorem State.pixelTransferTick_only (s : State) : PpuOnly s s.pixelTransferTick := by
  unfold State.pixelTransferTick
  have h1 : PpuOnly s (if s.ppu.fetchPhase then s.fetcherStep else s) := by
    split
    · exact s.fetcherStep_only
    · rfl
  generalize (if s.ppu.fetchPhase then s.fetcherStep else s) = t at *
  have h2 : PpuOnly s t.flipPhase := h1.trans rfl
  dsimp only
  split
  · exact h2.trans (State.outputPixel_only _)
  · exact h2

theorem State.statUpdate_only (s : State) : PpuOnly s s.statUpdate := by
  unfold State.statUpdate
  dsimp only
  split <;> rfl

theorem State.modeTick_only (s : State) : PpuOnly s s.modeTick := by
  unfold State.modeTick
  cases s.ppu.mode with
  | oamSearch => dsimp only; unfold State.oamSearchTick; split <;> rfl
  | pixelTransfer => exact s.pixelTransferTick_only
  | hblank =>
    dsimp only
    unfold State.hblankTick
    split
    · dsimp only; split <;> rfl
    · rfl
  | vblank =>
    dsimp only
    unfold State.vblankTick
    split
    · split <;> rfl
    · rfl

/-- A tick changes the PPU's own state, LY, STAT and IF. -/
theorem State.tick_only (s : State) : PpuOnly s s.tick := by
  unfold State.tick
  split
  · refine PpuOnly.trans (t := (if s.ppu.lcdOn then s else s.lcdEnable)) ?_
      (PpuOnly.trans ?_ (PpuOnly.trans (State.modeTick_only _) (State.statUpdate_only _)))
    · split <;> rfl
    · rfl
  · split <;> rfl

theorem State.ticks_only (s : State) (n : Nat) : PpuOnly s (s.ticks n) := by
  induction n generalizing s with
  | zero => rfl
  | succ n ih => exact s.tick_only.trans (ih s.tick)

theorem State.ticks_add (s : State) (m n : Nat) : s.ticks (m + n) = (s.ticks m).ticks n := by
  induction m generalizing s with
  | zero => rw [Nat.zero_add]; rfl
  | succ m ih => rw [Nat.add_right_comm]; exact ih s.tick

theorem State.ticks_succ (s : State) (n : Nat) : s.ticks (n + 1) = (s.ticks n).tick := s.ticks_add n 1

/-! ### A tick with the LCD on -/

theorem State.tick_on {s : State} (h1 : s.io.lcdc.getLsbD 7 = true) (h2 : s.ppu.lcdOn = true) :
    s.tick = s.countTick.modeTick.statUpdate := by
  simp only [State.tick, h1, h2, if_true]

@[simp] theorem State.statUpdate_mode (s : State) : s.statUpdate.ppu.mode = s.ppu.mode := by
  unfold State.statUpdate
  dsimp only
  split <;> rfl

@[simp] theorem State.statUpdate_lineTick (s : State) : s.statUpdate.ppu.lineTick = s.ppu.lineTick := by
  unfold State.statUpdate
  dsimp only
  split <;> rfl

@[simp] theorem State.statUpdate_lcdOn (s : State) : s.statUpdate.ppu.lcdOn = s.ppu.lcdOn := by
  unfold State.statUpdate
  dsimp only
  split <;> rfl

@[simp] theorem State.statUpdate_ly (s : State) : s.statUpdate.io.ly = s.io.ly := by
  unfold State.statUpdate
  dsimp only
  split <;> rfl

@[simp] theorem State.statUpdate_pace (s : State) : s.statUpdate.ppu.pace = s.ppu.pace := by
  unfold State.statUpdate
  dsimp only
  split <;> rfl

@[simp] theorem State.statUpdate_front (s : State) : s.statUpdate.ppu.front = s.ppu.front := by
  unfold State.statUpdate
  dsimp only
  split <;> rfl

/-- The status bits are a function of the mode, LY and LYC: writing them again changes nothing. -/
theorem statByte_idem (stat : Byte) (mode : Mode) (ly lyc : Byte) :
    statByte (statByte stat mode ly lyc) mode ly lyc = statByte stat mode ly lyc := by
  have : ∀ (st : Byte) (b : Bool) (c : BitVec 2),
      ((st.extractLsb' 3 5 ++ BitVec.ofBool b ++ c : Byte).extractLsb' 3 5 ++ BitVec.ofBool b ++ c : Byte) =
        st.extractLsb' 3 5 ++ BitVec.ofBool b ++ c := by decide
  exact this stat _ _

/-! ### The pace of PixelTransfer -/

theorem tileRow_length (hi lo : Byte) : (tileRow hi lo).length = 8 := by simp [tileRow]

/-- A fetcher step, seen by its pace. -/
theorem State.fetcherStep_pace (s : State) : s.fetcherStep.ppu.pace = s.ppu.pace.fetch := by
  unfold State.fetcherStep Pace.fetch
  cases h : s.ppu.fstate with
  | pushToFifo =>
    by_cases h8 : s.ppu.fifo.length ≤ 8
    · simp [Ppu.pace, h, h8, tileRow_length]
    · simp [Ppu.pace, h, h8]
  | _ => simp [Ppu.pace, h]

/-- A tick of PixelTransfer, seen by its pace. -/
theorem State.pixelTransferTick_pace (s : State) : s.pixelTransferTick.ppu.pace = s.ppu.pace.tick := by
  have key : ∀ t : State,
      (if t.flipPhase.ppu.fifo.length > 8 then t.flipPhase.outputPixel else t.flipPhase).ppu.pace =
        (let q := t.ppu.pace
         if q.fifoLen > 8 then { q with phase := !q.phase, fifoLen := q.fifoLen - 1, x := q.x + 1 }
         else { q with phase := !q.phase }) := by
    intro t
    have hl : t.flipPhase.ppu.fifo = t.ppu.fifo := rfl
    have hp : t.ppu.pace.fifoLen = t.ppu.fifo.length := rfl
    simp only [hl, hp]
    split
    · unfold State.outputPixel
      rw [hl]
      cases hf : t.ppu.fifo with
      | nil => simp [hf] at *
      | cons i rest => simp [Ppu.pace, State.flipPhase, hf]
    · rfl
  unfold State.pixelTransferTick Pace.tick
  dsimp only
  rw [key]
  cases h : s.ppu.fetchPhase with
  | false => simp [Ppu.pace, h]
  | true =>
    have := s.fetcherStep_pace
    simp only [if_true, this]
    simp [Ppu.pace, h]

end Sys2Proof.Machine
end

