-- ==== Sys2Proof/Laws/Reset.lean ====
section
/-! SUPPORT. The storage `reset` builds, and the bytes put behind a mapping from outside. -/

namespace Sys2Proof.Machine

/-! ### Images -/

theorem Memory.image_lt {a j : Nat} {vs : List Byte} (h : j < a) :
    ∀ e ∈ Memory.image a vs, j < e.1 := by
  induction vs generalizing a with
  | nil => intro e he; cases he
  | cons v rest ih =>
    intro e he
    unfold Memory.image at he
    split at he
    · exact ih (by omega) e he
    · rcases List.mem_cons.1 he with rfl | he
      · exact h
      · exact ih (by omega) e he

/-- An image is in canonical form. -/
theorem Memory.wf_image (a : Nat) (vs : List Byte) : (Memory.image a vs).wf = true := by
  induction vs generalizing a with
  | nil => rfl
  | cons v rest ih =>
    unfold Memory.image
    split
    · exact ih (a + 1)
    · next hv => exact Sparse.wf_cons.2 ⟨hv, Memory.image_lt (Nat.lt_succ_self a), ih (a + 1)⟩

/-- A byte of an image, at its own address. -/
theorem Memory.read_image {a k : Nat} {vs : List Byte} (h : k < vs.length) :
    (Memory.image a vs).read (a + k) = vs[k] := by
  induction vs generalizing a k with
  | nil => cases h
  | cons v rest ih =>
    unfold Memory.image
    cases k with
    | zero =>
      split
      · next hv =>
        rw [List.getElem_cons_zero, hv]
        exact Sparse.read_of_lt (Memory.image_lt (by omega))
      · simp [Memory.read, Sparse.read]
    | succ k =>
      have hk : k < rest.length := by simpa using h
      have e : a + (k + 1) = a + 1 + k := by omega
      split
      · rw [e, List.getElem_cons_succ]
        exact ih hk
      · rw [e, List.getElem_cons_succ, ← ih (a := a + 1) hk]
        simp only [Memory.read, Sparse.read]
        rw [if_neg (by omega), if_neg (by omega)]

theorem wf_fillRam {ms : BusMap} {m : Memory} (h : m.wf = true) (init : List Host.Cell) :
    (fillRam ms m init).wf = true := by
  induction init generalizing m with
  | nil => exact h
  | cons e rest ih =>
    unfold fillRam
    split
    · exact ih (Memory.wf_write h _ _)
    · exact ih h

/-- `RAM_INIT` reaches drawn addresses alone. -/
theorem read_fillRam {ms : BusMap} {m : Memory} (h : m.wf = true) (init : List Host.Cell) {a : Nat}
    (ha : drawn ms a = false) : (fillRam ms m init).read a = m.read a := by
  induction init generalizing m with
  | nil => rfl
  | cons e rest ih =>
    unfold fillRam
    split
    · next hd =>
      rw [ih (Memory.wf_write h _ _)]
      refine Memory.read_write_other h _ fun he => ?_
      rw [← he, ha] at hd
      cases hd
    · exact ih h

/-- A byte past the end of an image is unlisted. -/
theorem Memory.read_image_past {a j : Nat} {vs : List Byte} (h : a + vs.length ≤ j) :
    (Memory.image a vs).read j = Config.unlistedByte := by
  induction vs generalizing a with
  | nil => rfl
  | cons v rest ih =>
    simp only [List.length_cons] at h
    unfold Memory.image
    split
    · exact ih (by omega)
    · rw [← ih (a := a + 1) (by omega)]
      simp only [Memory.read, Sparse.read]
      rw [if_neg (by omega), if_neg (by omega)]

/-- An address `RAM_INIT` does not list keeps its byte. -/
theorem read_fillRam_unlisted {ms : BusMap} {m : Memory} (h : m.wf = true) {init : List Host.Cell} {a : Nat}
    (ha : ∀ c ∈ init, c.1 ≠ a) : (fillRam ms m init).read a = m.read a := by
  induction init generalizing m with
  | nil => rfl
  | cons c rest ih =>
    have hr : ∀ c ∈ rest, c.1 ≠ a := fun c hc => ha c (List.mem_cons_of_mem _ hc)
    have hc := ha c List.mem_cons_self
    unfold fillRam
    split
    · rw [ih (Memory.wf_write h _ _) hr]
      exact Memory.read_write_other h _ hc.symm
    · exact ih h hr

/-- A drawn address takes the byte of `RAM_INIT`. -/
theorem read_fillRam_drawn {ms : BusMap} {m : Memory} (h : m.wf = true) {init : Memory}
    (hi : init.wf = true) {a : Nat} (ha : drawn ms a = true) (hm : m.read a = Config.unlistedByte) :
    (fillRam ms m init).read a = init.read a := by
  induction init generalizing m with
  | nil => exact hm
  | cons c rest ih =>
    obtain ⟨k, v⟩ := c
    obtain ⟨-, hlt, hw⟩ := Sparse.wf_cons.1 hi
    have hstep : (fillRam ms m ((k, v) :: rest)) = fillRam ms (if drawn ms k then m.write k v else m) rest := rfl
    have hwf : (if drawn ms k then m.write k v else m).wf = true := by
      split
      · exact Memory.wf_write h _ _
      · exact h
    rw [hstep]
    by_cases hk : a = k
    · subst hk
      rw [read_fillRam_unlisted hwf fun c hc => (Nat.ne_of_gt (hlt c hc)), if_pos ha,
        Memory.read_write_same h]
      simp [Memory.read, Sparse.read]
    · have hm' : (if drawn ms k then m.write k v else m).read a = Config.unlistedByte := by
        split
        · rw [Memory.read_write_other h _ hk, hm]
        · exact hm
      rw [ih hwf hw hm']
      simp only [Memory.read, Sparse.read, if_neg hk]
      split
      · next hlt' => exact Sparse.read_of_lt fun e he => Nat.lt_trans hlt' (hlt e he)
      · rfl

/-! ### The platform's mappings -/

theorem Memory.read_load_other {m : Memory} (h : m.wf = true) {a j : Nat} {vs : List Byte}
    (hj : j < a ∨ a + vs.length ≤ j) : (m.load a vs).read j = m.read j := by
  induction vs generalizing m a with
  | nil => rfl
  | cons v rest ih =>
    simp only [List.length_cons] at hj
    unfold Memory.load
    rw [ih (Memory.wf_write h _ _) (by omega)]
    exact Memory.read_write_other h _ (by omega)

theorem Memory.read_load {m : Memory} (h : m.wf = true) {a k : Nat} {vs : List Byte} (hk : k < vs.length) :
    (m.load a vs).read (a + k) = vs[k] := by
  induction vs generalizing m a k with
  | nil => cases hk
  | cons v rest ih =>
    unfold Memory.load
    cases k with
    | zero =>
      rw [Memory.read_load_other (Memory.wf_write h _ _) (by omega)]
      exact Memory.read_write_same h _ _
    | succ k =>
      rw [show a + (k + 1) = a + 1 + k by omega, List.getElem_cons_succ]
      exact ih (Memory.wf_write h _ _) _

theorem wf_loadExtra {m : Memory} (h : m.wf = true) (es : List ExtraMapping) : (loadExtra m es).wf = true := by
  induction es generalizing m with
  | nil => exact h
  | cons e rest ih => exact ih (Memory.wf_load h _ _)

/-- The contents of the platform's mappings reach no other address. -/
theorem read_loadExtra_other {m : Memory} (h : m.wf = true) {es : List ExtraMapping} {j : Nat}
    (hj : ∀ e ∈ es, e.mapping.contains j = false) : (loadExtra m es).read j = m.read j := by
  induction es generalizing m with
  | nil => rfl
  | cons e rest ih =>
    have he := hj e List.mem_cons_self
    rw [Bool.eq_false_iff, Ne, Mapping.contains_iff] at he
    simp only [ExtraMapping.mapping] at he
    refine (ih (Memory.wf_load h _ _) fun e he => hj e (List.mem_cons_of_mem _ he)).trans ?_
    exact Memory.read_load_other h (by omega)

/-- A byte of a platform's mapping that overlaps no other. -/
theorem read_loadExtra {m : Memory} (h : m.wf = true) {es : List ExtraMapping}
    (ha : es.Pairwise fun e e' => e.mapping.overlaps e'.mapping = false) {e : ExtraMapping} (he : e ∈ es)
    {k : Nat} (hk : k < e.bytes.length) : (loadExtra m es).read (e.base + k) = e.bytes[k] := by
  induction es generalizing m with
  | nil => cases he
  | cons e' rest ih =>
    obtain ⟨h1, h2⟩ := List.pairwise_cons.1 ha
    rcases List.mem_cons.1 he with rfl | he
    · refine (read_loadExtra_other (Memory.wf_load h _ _) fun e' he' => ?_).trans (Memory.read_load h hk)
      have := h1 e' he'
      rw [Bool.eq_false_iff, Ne, Mapping.overlaps_iff] at this
      rw [Bool.eq_false_iff, Ne, Mapping.contains_iff]
      simp only [ExtraMapping.mapping] at this ⊢
      omega
    · exact ih (Memory.wf_load h _ _) h2 he

/-- Mappings that overlap nothing are all added. -/
theorem addExtra_ok {ms : BusMap} {es : List ExtraMapping} (hs : ms.Sorted = true)
    (hv : ∀ n ∈ ms, n.valid = true) (hes : ∀ e ∈ es, e.mapping.valid = true)
    (ho : ∀ n ∈ ms, ∀ e ∈ es, n.overlaps e.mapping = false)
    (ha : es.Pairwise fun e e' => e.mapping.overlaps e'.mapping = false) :
    ∃ ms' : BusMap, addExtra ms es = .ok ms' ∧ ms'.Sorted = true ∧
      ∀ n, n ∈ ms' ↔ n ∈ ms ∨ ∃ e ∈ es, n = e.mapping := by
  induction es generalizing ms with
  | nil => exact ⟨ms, rfl, hs, by simp⟩
  | cons e rest ih =>
    obtain ⟨h1, h2⟩ := List.pairwise_cons.1 ha
    have he := fun n hn => ho n hn e List.mem_cons_self
    have hev := hes e List.mem_cons_self
    obtain ⟨ms', q1, q2, q3⟩ := ih (ms := ms.insert e.mapping) (BusMap.sorted_insert hs hev hv he)
      (fun n hn => by rcases BusMap.mem_insert.1 hn with rfl | hn; exacts [hev, hv n hn])
      (fun e he => hes e (List.mem_cons_of_mem _ he))
      (fun n hn e' he' => by
        rcases BusMap.mem_insert.1 hn with rfl | hn
        exacts [h1 e' he', ho n hn e' (List.mem_cons_of_mem _ he')]) h2
    refine ⟨ms', ?_, q2, fun n => ?_⟩
    · unfold addExtra
      rw [BusMap.add_of_apart he]
      exact q1
    · rw [q3, BusMap.mem_insert]
      simp only [List.mem_cons, exists_eq_or_imp]
      tauto

/-- What was added overlapped nothing before it. -/
theorem addExtra_sound {ms ms' : BusMap} {es : List ExtraMapping} (hs : ms.Sorted = true)
    (hv : ∀ n ∈ ms, n.valid = true) (hes : ∀ e ∈ es, e.mapping.valid = true)
    (h : addExtra ms es = .ok ms') :
    ms'.Sorted = true ∧ ∀ n, n ∈ ms' ↔ n ∈ ms ∨ ∃ e ∈ es, n = e.mapping := by
  induction es generalizing ms with
  | nil =>
    injection h with h
    subst h
    exact ⟨hs, by simp⟩
  | cons e rest ih =>
    have hev := hes e List.mem_cons_self
    have he : ∀ n ∈ ms, n.overlaps e.mapping = false := by
      intro n hn
      by_contra ho
      unfold addExtra at h
      rw [BusMap.add_of_overlap hn (by simpa using ho)] at h
      cases h
    unfold addExtra at h
    rw [BusMap.add_of_apart he] at h
    obtain ⟨q2, q3⟩ := ih (BusMap.sorted_insert hs hev hv he)
      (fun n hn => by rcases BusMap.mem_insert.1 hn with rfl | hn; exacts [hev, hv n hn])
      (fun e he => hes e (List.mem_cons_of_mem _ he)) h
    refine ⟨q2, fun n => ?_⟩
    rw [q3, BusMap.mem_insert]
    simp only [List.mem_cons, exists_eq_or_imp]
    tauto

/-- The first mapping that overlaps one before it is the error. -/
theorem addExtra_overlap {ms ms' : BusMap} {pre post : List ExtraMapping} {e : ExtraMapping}
    (h : addExtra ms pre = .ok ms') {n : Mapping} (hn : n ∈ ms') (ho : n.overlaps e.mapping = true) :
    addExtra ms (pre ++ e :: post) = .error (.mappingOverlap e.base e.bytes.length) := by
  induction pre generalizing ms with
  | nil =>
    injection h with h
    subst h
    rw [List.nil_append]
    unfold addExtra
    rw [BusMap.add_of_overlap hn ho]
  | cons e' rest ih =>
    unfold addExtra at h
    split at h
    · cases h
    · next ms1 h1 =>
      rw [List.cons_append]
      unfold addExtra
      rw [h1]
      exact ih h

/-! ### The base map -/

theorem BusMap.sorted_append {xs ys : BusMap} (hx : xs.Sorted = true) (hy : ys.Sorted = true)
    (h : ∀ x ∈ xs, ∀ y ∈ ys, x.base + x.size ≤ y.base) : BusMap.Sorted (xs ++ ys) = true := by
  induction xs with
  | nil => exact hy
  | cons x rest ih =>
    obtain ⟨h1, h2⟩ := BusMap.sorted_cons.1 hx
    refine BusMap.sorted_cons.2 ⟨fun n hn => ?_, ih h2 fun x hx => h x (List.mem_cons_of_mem _ hx)⟩
    rcases List.mem_append.1 hn with hn | hn
    exacts [h1 n hn, h x List.mem_cons_self n hn]

theorem mem_bank1 {z : Nat} {m : Mapping} : m ∈ bank1 z ↔ 0x4000 < z ∧ m = ⟨0x4000, min z 0x8000 - 0x4000, true, .memory⟩ := by
  unfold bank1
  split
  · simp; omega
  · simp [Config.maxRomSize]; omega

theorem mem_cartRam {z : Nat} {m : Mapping} : m ∈ cartRam z ↔ z ≠ 0 ∧ m = ⟨0xA000, z, false, .memory⟩ := by
  unfold cartRam
  split <;> simp [*]

/-- What is in the base map. -/
theorem mem_baseMap {b : Bool} {rom ram : Nat} {m : Mapping} :
    m ∈ baseMap b rom ram ↔ m = bootArea b ∨ m = ⟨0x0100, 0x3F00, true, .memory⟩ ∨ m ∈ bank1 rom ∨
      m = ⟨0x8000, 0x2000, false, .memory⟩ ∨ m ∈ cartRam ram ∨ m ∈ fixedMap := by
  simp only [baseMap, List.mem_append, List.mem_cons, List.not_mem_nil, or_false]
  tauto

theorem fixedMap_spec : BusMap.Sorted fixedMap = true ∧ ∀ m ∈ fixedMap,
    0xC000 ≤ m.base ∧ m.valid = true ∧ m.atHome = true ∧ m.store ≠ .platform := by decide

/-- The base map is one R81 and R100 allow. -/
theorem baseMap_spec (b : Bool) (rom : Nat) {ram : Nat} (h : ram ≤ 0x2000) :
    (baseMap b rom ram).Sorted = true ∧ ∀ m ∈ baseMap b rom ram,
      m.valid = true ∧ m.atHome = true ∧ m.store ≠ .platform := by
  refine ⟨?_, fun m hm => ?_⟩
  · unfold baseMap
    refine BusMap.sorted_append (BusMap.sorted_append (BusMap.sorted_append (BusMap.sorted_append
      rfl ?_ ?_) rfl ?_) ?_ ?_) fixedMap_spec.1 ?_
    · unfold bank1; split <;> rfl
    · intro x hx y hy
      obtain ⟨-, rfl⟩ := mem_bank1.1 hy
      simp only [List.mem_cons, List.not_mem_nil, or_false] at hx
      rcases hx with rfl | rfl <;> simp [bootArea]
    · intro x hx y hy
      simp only [List.mem_append, List.mem_cons, List.not_mem_nil, or_false, mem_bank1] at hx hy
      subst hy
      rcases hx with (rfl | rfl) | ⟨-, rfl⟩ <;> simp [bootArea]
      omega
    · unfold cartRam; split <;> rfl
    · intro x hx y hy
      obtain ⟨-, rfl⟩ := mem_cartRam.1 hy
      simp only [List.mem_append, List.mem_cons, List.not_mem_nil, or_false, mem_bank1] at hx
      rcases hx with ((rfl | rfl) | ⟨-, rfl⟩) | rfl <;> simp [bootArea]
      omega
    · intro x hx y hy
      have hy := (fixedMap_spec.2 y hy).1
      simp only [List.mem_append, List.mem_cons, List.not_mem_nil, or_false, mem_bank1, mem_cartRam] at hx
      rcases hx with (((rfl | rfl) | ⟨-, rfl⟩) | rfl) | ⟨-, rfl⟩ <;> simp [bootArea] <;> omega
  · rcases mem_baseMap.1 hm with rfl | rfl | hm | rfl | hm | hm
    · cases b <;> decide
    · decide
    · obtain ⟨h1, rfl⟩ := mem_bank1.1 hm
      refine ⟨?_, rfl, by simp⟩
      simp only [Mapping.valid, Bool.and_eq_true, decide_eq_true_eq, and_true]
      omega
    · decide
    · obtain ⟨h1, rfl⟩ := mem_cartRam.1 hm
      refine ⟨?_, rfl, by simp⟩
      simp only [Mapping.valid, Bool.and_eq_true, decide_eq_true_eq, and_true]
      omega
    · exact (fixedMap_spec.2 m hm).2

/-- Which stretch of memory backs 0x0000-0x00FF changes no overlap. -/
theorem overlaps_baseMap {b b' : Bool} {rom ram : Nat} {n : Mapping}
    (h : ∀ m ∈ baseMap b rom ram, m.overlaps n = false) : ∀ m ∈ baseMap b' rom ram, m.overlaps n = false := by
  intro m hm
  rcases mem_baseMap.1 hm with rfl | hm
  · exact h (bootArea b) (mem_baseMap.2 (.inl rfl))
  · exact h m (mem_baseMap.2 (.inr hm))

/-! ### Bytes put from outside -/

theorem State.poke_storageOk {s : State} (h : s.storageOk = true) (a : Word) (v : Byte) :
    (s.poke a v).storageOk = true := by
  unfold State.poke
  split
  · exact h
  · exact State.writeStore_storageOk h _ _ _

theorem State.pokeAll_storageOk {s : State} (h : s.storageOk = true) (a : Word) (vs : List Byte) :
    (s.pokeAll a vs).storageOk = true := by
  induction vs generalizing s a with
  | nil => exact h
  | cons v rest ih => exact ih (State.poke_storageOk h a v) (a + 1)

theorem State.poke_map (s : State) (a : Word) (v : Byte) :
    (s.poke a v).map = s.map ∧ (s.poke a v).bootMapped = s.bootMapped := by
  unfold State.poke
  split <;> simp

/-- A move of a collaborator keeps the canonical form. -/
theorem State.collab_storageOk {s : State} (h : s.storageOk = true) (m : CollabMove) :
    (s.collab m).storageOk = true := by
  cases m with
  | writeSound i v =>
    obtain ⟨h1, h2, h3, h4⟩ := State.storageOk_iff.1 h
    exact State.storageOk_iff.2 ⟨Memory.wf_write h1 _ v, h2, h3, h4⟩
  | writeExtra a v =>
    unfold State.collab
    dsimp only
    split
    · obtain ⟨h1, h2, h3, h4⟩ := State.storageOk_iff.1 h
      exact State.storageOk_iff.2 ⟨Memory.wf_write h1 _ v, h2, h3, h4⟩
    · exact h
  | _ => exact h

/-- The memory right after reset is in canonical form. -/
theorem State.reset_storageOk : State.reset.storageOk = true := by decide

end Sys2Proof.Machine
end

