-- ==== Sys2Proof/Laws/Step.lean ====
section
/-! SUPPORT. What fetching, dispatching and stepping can do. -/

namespace Sys2Proof.Machine

/-! ### Fetching -/

theorem operandBytes_le (op : Byte) : operandBytes op ≤ 2 := by
  unfold operandBytes
  split
  · exact Nat.le_refl 2
  · split <;> omega

/-- A fetch either finds all the bytes its opcode asks for and runs the instruction they assemble to,
with PC past them, or stops at the first byte that no mapping contains, with PC at it. -/
theorem State.fetchInstr_cases (s : State) (k : Instr → State → Result) :
    (∃ op b1 b2, s.read8 s.pc = some op ∧
      (1 ≤ operandBytes op → s.read8 (s.pc + 1) = some b1) ∧
      (operandBytes op = 2 → s.read8 (s.pc + 2) = some b2) ∧
      s.fetchInstr k = k (assemble op (if operandBytes op = 0 then 0 else b1)
        (if operandBytes op = 2 then b2 else 0)) (s.setPc (s.pc + .ofNat 16 (operandBytes op + 1)))) ∨
    (∃ n ≤ 2, s.read8 (s.pc + .ofNat 16 n) = none ∧
      s.fetchInstr k = (s.setPc (s.pc + .ofNat 16 n)).stopsAt (s.pc + .ofNat 16 n) .fetch) := by
  have e0 : s.pc + BitVec.ofNat 16 0 = s.pc := by simp
  have e2 : s.pc + 1 + 1 = s.pc + 2 := by bv_omega
  have e3 : s.pc + 2 + 1 = s.pc + 3 := by bv_omega
  unfold State.fetchInstr
  cases h0 : s.read8 s.pc with
  | none =>
    refine .inr ⟨0, by omega, by rw [e0]; exact h0, ?_⟩
    rw [State.fetch8_none h0, e0]
    rfl
  | some op =>
    rw [State.fetch8_some h0]
    have hle := operandBytes_le op
    obtain h | h | h : operandBytes op = 0 ∨ operandBytes op = 1 ∨ operandBytes op = 2 := by omega
    · simp only [h]
      exact .inl ⟨op, 0, 0, rfl, by omega, by omega, by simp [h]⟩
    · simp only [h]
      cases h1 : s.read8 (s.pc + 1) with
      | none =>
        refine .inr ⟨1, by omega, h1, ?_⟩
        rw [State.fetch8_none (s := s.setPc (s.pc + 1)) h1]
        rfl
      | some b1 =>
        refine .inl ⟨op, b1, 0, rfl, fun _ => rfl, by omega, ?_⟩
        rw [State.fetch8_some (s := s.setPc (s.pc + 1)) h1]
        simp only [State.setPc_pc, h, e2]
        rfl
    · simp only [h]
      cases h1 : s.read8 (s.pc + 1) with
      | none =>
        refine .inr ⟨1, by omega, h1, ?_⟩
        rw [State.fetch8_none (s := s.setPc (s.pc + 1)) h1]
        rfl
      | some b1 =>
        rw [State.fetch8_some (s := s.setPc (s.pc + 1)) h1]
        simp only [State.setPc_pc, e2]
        cases h2 : s.read8 (s.pc + 2) with
        | none =>
          refine .inr ⟨2, by omega, h2, ?_⟩
          rw [State.fetch8_none (s := (s.setPc (s.pc + 1)).setPc (s.pc + 2)) h2]
          rfl
        | some b2 =>
          refine .inl ⟨op, b1, b2, rfl, fun _ => rfl, fun _ => rfl, ?_⟩
          rw [State.fetch8_some (s := (s.setPc (s.pc + 1)).setPc (s.pc + 2)) h2]
          simp only [State.setPc_pc, h, e3]
          rfl

/-- What a fetch assembles is a whole instruction. -/
theorem assemble_wellFormed (op b1 b2 : Byte) : (assemble op b1 b2).WellFormed = true := by
  have hcb : ∀ c : Byte, (decodeCb c).WellFormed = true := by decide
  by_cases h : op = 0xCB
  · rw [assemble, if_pos h]
    exact hcb b1
  · rw [assemble, if_neg h]
    have key : ∀ n < 256, n ≠ 0xCB → (decodePrimary (.ofNat 8 n) b1 b2).WellFormed = true := by
      intro n hn hne
      interval_cases n <;> first | rfl | exact absurd rfl hne
    have := key op.toNat op.isLt fun he => h (BitVec.eq_of_toNat_eq he)
    simpa using this

/-! ### Running an instruction -/

theorem endResult_next {r : Result} {t : State} (h : endResult r = .next t) :
    ∃ u, r = .next u ∧ t = u.endStep := by
  cases r with
  | next u => exact ⟨u, rfl, by injection h with h; exact h.symm⟩
  | fault f => cases h
  | refused r => cases h

theorem endResult_fault {r : Result} {f : Fault} : endResult r = .fault f ↔ r = .fault f := by
  cases r <;> simp [endResult]

theorem endResult_refused {r : Result} {f : Refusal} : endResult r = .refused f ↔ r = .refused f := by
  cases r <;> simp [endResult]

/-- An instruction that ran to its end was fetched whole, and ran with PC past its bytes. -/
theorem State.runInstr_next {s t : State} (h : s.runInstr = .next t) :
    ∃ op b1 b2 u, s.read8 s.pc = some op ∧ (1 ≤ operandBytes op → s.read8 (s.pc + 1) = some b1) ∧
      exec (assemble op b1 b2) (s.setPc (s.pc + .ofNat 16 (operandBytes op + 1))) = .next u ∧
      t = u.endStep := by
  unfold State.runInstr at h
  rcases s.fetchInstr_cases (fun i t => endResult (exec i t)) with ⟨op, b1, b2, h1, h2, h3, e⟩ | ⟨n, -, -, e⟩
  · rw [e] at h
    obtain ⟨u, hu, ht⟩ := endResult_next h
    exact ⟨op, _, _, u, h1, fun hop => by rw [if_neg (by omega)]; exact h2 hop, hu, ht⟩
  · rw [e] at h
    cases h

/-- The end of a step changes the EI delay, IME and the cycle total. -/
theorem State.endStep_fields (s : State) :
    s.endStep = { s with
      eiDelay := s.eiDelay - 1, ime := decide (s.eiDelay = 1) || s.ime,
      cyclesTotal := s.cyclesTotal + s.stepCycles } := by
  unfold State.endStep State.endOfStepEi
  by_cases h : s.eiDelay = 0
  · simp [h]
  · simp [h]

/-! ### Dispatch -/

/-- A dispatch that got to its handler: the IF bit was cleared through the bus, PC pushed, and the handler
runs with IME = 0 and 5 M-cycles counted. -/
theorem State.dispatch_next {s t : State} {p : Byte} {k : State → Result}
    (h : s.dispatch p k = .next t) :
    ∃ u w, ({ s with ime := false } : State).write8 0xFF0F (s.io.iflag &&& ~~~ bit8 (firstSource p).bit) = .ok u ∧
      u.Pushed u.pc w ∧
      k { w with pc := (firstSource p).vector, stepCycles := w.stepCycles + Config.dispatchCycles } = .next t := by
  unfold State.dispatch at h
  obtain ⟨u, hu, h⟩ := State.withStore_next h
  obtain ⟨w, hw, h⟩ := State.push16_pushed h
  exact ⟨u, w, hu, hw, h⟩

/-! ### The CPU step -/

/-- The idle step of a halted CPU. -/
theorem State.cpuStep_idle {s : State} (h1 : s.fault = none) (h2 : s.refused = none)
    (h3 : s.halted = true ∧ s.pend = 0) : s.cpuStep = .next s.idle := by
  unfold State.cpuStep
  rw [h1, h2]
  simp only [h3, and_self, if_true]

/-- A step that fetches at PC. -/
theorem State.cpuStep_runs {s : State} (h1 : s.fault = none) (h2 : s.refused = none)
    (h3 : ¬(s.halted = true ∧ s.pend = 0)) (h4 : ¬(s.ime = true ∧ s.pend ≠ 0)) :
    s.cpuStep = s.beginStep.runInstr := by
  unfold State.cpuStep
  rw [h1, h2]
  simp only [h3, h4, if_false]

/-- A step that dispatches. -/
theorem State.cpuStep_dispatches {s : State} (h1 : s.fault = none) (h2 : s.refused = none)
    (h4 : s.ime = true ∧ s.pend ≠ 0) : s.cpuStep = s.beginStep.dispatch s.pend State.runInstr := by
  unfold State.cpuStep
  rw [h1, h2]
  dsimp only
  rw [if_neg fun h => h4.2 h.2, if_pos h4]

/-- Everything a CPU step can be: the same again of a terminal state, idling, dispatching, running. -/
theorem State.cpuStep_cases (s : State) :
    (∃ e, s.fault = some e ∧ s.cpuStep = .fault (.fatal e s)) ∨
    (s.fault = none ∧ s.refused = some .stop ∧ s.cpuStep = .refused (.stop s)) ∨
    (s.fault = none ∧ s.refused = none ∧
      ((s.halted = true ∧ s.pend = 0 ∧ s.cpuStep = .next s.idle) ∨
        (¬(s.halted = true ∧ s.pend = 0) ∧ s.ime = true ∧ s.pend ≠ 0 ∧
          s.cpuStep = s.beginStep.dispatch s.pend State.runInstr) ∨
        (¬(s.halted = true ∧ s.pend = 0) ∧ ¬(s.ime = true ∧ s.pend ≠ 0) ∧
          s.cpuStep = s.beginStep.runInstr))) := by
  cases h1 : s.fault with
  | some e => exact .inl ⟨e, rfl, by unfold State.cpuStep; rw [h1]⟩
  | none =>
    cases h2 : s.refused with
    | some r => cases r; exact .inr (.inl ⟨rfl, rfl, by unfold State.cpuStep; rw [h1, h2]⟩)
    | none =>
      refine .inr (.inr ⟨rfl, rfl, ?_⟩)
      by_cases h3 : s.halted = true ∧ s.pend = 0
      · exact .inl ⟨h3.1, h3.2, State.cpuStep_idle h1 h2 h3⟩
      · by_cases h4 : s.ime = true ∧ s.pend ≠ 0
        · exact .inr (.inl ⟨h3, h4.1, h4.2, State.cpuStep_dispatches h1 h2 h4⟩)
        · exact .inr (.inr ⟨h3, h4, State.cpuStep_runs h1 h2 h3 h4⟩)

theorem step_next {s t : State} (h : step s = .next t) :
    ∃ u, s.cpuStep = .next u ∧ t = u.ticks (4 * u.stepCycles) := by
  unfold step State.systemStep at h
  cases hc : s.cpuStep with
  | next u => rw [hc] at h; exact ⟨u, rfl, by injection h with h; exact h.symm⟩
  | fault f => rw [hc] at h; cases h
  | refused r => rw [hc] at h; cases h

theorem step_fault {s : State} {f : Fault} : step s = .fault f ↔ s.cpuStep = .fault f := by
  unfold step State.systemStep
  cases s.cpuStep <;> simp [payTicks]

theorem step_refused {s : State} {r : Refusal} : step s = .refused r ↔ s.cpuStep = .refused r := by
  unfold step State.systemStep
  cases s.cpuStep <;> simp [payTicks]

end Sys2Proof.Machine
end

