-- ==== Sys2Proof/Tests/Slice0.lean ====
section
/-! SUPPORT. Tests, with results from spec/95_test_vectors.md and from the encodings of the spec, and a
state that meets the hypotheses of each obligation. -/

namespace Sys2Proof.Tests

open Sys2Proof Sys2Proof.Machine

/-! ### The fixture of spec/95_test_vectors.md section 2.0

One writable mapping of all addresses, but for IE and IF, which are the bytes at 0xFFFF and 0xFF0F. -/

def fixtureMap : BusMap :=
  [⟨0x0000, 0xFF0F, false, .memory⟩, io 0xFF0F .iflag, ⟨0xFF10, 0x00EF, false, .memory⟩, io 0xFFFF .ie]

def fixture : State :=
  { State.reset with
    regs := ⟨0, 0, 0, 0, 0, 0, 0⟩, flags := .ofByte 0, sp := 0xFFFE, pc := 0xC000, pc0 := 0,
    io := .boot0, map := fixtureMap, ppu := .init false }

end Sys2Proof.Tests

namespace Sys2Proof.Machine

/-- The bytes at PC. -/
def State.code (s : State) (bs : List Byte) : State := s.pokeAll s.pc bs

/-- Bytes at given addresses. -/
def State.puts (s : State) : List (Word × Byte) → State
  | [] => s
  | (a, v) :: rest => (s.poke a v).puts rest

def State.withIme (s : State) (b : Bool) : State := { s with ime := b }

def State.total (s : State) (n : Nat) : State := { s with cyclesTotal := n }

/-- The state after `n` CPU steps, without the model's own fields (log 7). -/
def State.after (s : State) : Nat → Option State
  | 0 => some { s with pc0 := 0, stepCycles := 0 }
  | n + 1 =>
    match s.cpuStep with
    | .next t => t.after n
    | .fault _ => none
    | .refused _ => none

end Sys2Proof.Machine

namespace Sys2Proof.Tests

open Sys2Proof Sys2Proof.Machine

/-- LD B,C (2.1 #1). -/
theorem test_load_1 :
    let s := fixture.code [0x41] |>.setReg .c 0x5A
    s.after 1 = some (s |>.setReg .b 0x5A |>.setPc 0xC001 |>.total 1) := by rfl

/-- LD r,n8 (LD E,n8) (2.1 #2). -/
theorem test_load_2 :
    let s := fixture.code [0x1E, 0x80]
    s.after 1 = some (s |>.setReg .e 0x80 |>.setPc 0xC002 |>.total 2) := by rfl

/-- LD (HL),n8 (2.1 #3). -/
theorem test_load_3 :
    let s := fixture.code [0x36, 0x99] |>.setPair .hl 0xD000
    s.after 1 = some (s |>.setPc 0xC002 |>.puts [(0xD000, 0x99)] |>.total 3) := by rfl

/-- LD A,(HL+) at HL=FFFF wraps (2.1 #4). -/
theorem test_load_4 :
    let s := fixture.code [0x2A] |>.setPair .hl 0xFFFF |>.puts [(0xFFFF, 0x42)]
    s.after 1 = some (s |>.setReg .a 0x42 |>.setReg .h 0x00 |>.setReg .l 0x00 |>.setPc 0xC001 |>.total 2) := by rfl

/-- LD (HL-),A at HL=0000 wraps (2.1 #5). -/
theorem test_load_5 :
    let s := fixture.code [0x32] |>.setReg .a 0x77 |>.setPair .hl 0x0000
    s.after 1 = some (s |>.setReg .h 0xFF |>.setReg .l 0xFF |>.setPc 0xC001 |>.puts [(0x0000, 0x77)] |>.total 2) := by rfl

/-- LD (a16),SP (2.1 #6). -/
theorem test_load_6 :
    let s := fixture.code [0x08, 0x00, 0xD0] |>.setSp 0xABCD
    s.after 1 = some (s |>.setPc 0xC003 |>.puts [(0xD000, 0xCD), (0xD001, 0xAB)] |>.total 5) := by rfl

/-- LDH (a8),A (2.1 #7). -/
theorem test_load_7 :
    let s := fixture.code [0xE0, 0x80] |>.setReg .a 0x3C
    s.after 1 = some (s |>.setPc 0xC002 |>.puts [(0xFF80, 0x3C)] |>.total 3) := by rfl

/-- LDH A,(C) (2.1 #8). -/
theorem test_load_8 :
    let s := fixture.code [0xF2] |>.setReg .c 0x81 |>.puts [(0xFF81, 0x5E)]
    s.after 1 = some (s |>.setReg .a 0x5E |>.setPc 0xC001 |>.total 2) := by rfl

/-- LD A,(a16) (2.1 #9). -/
theorem test_load_9 :
    let s := fixture.code [0xFA, 0x34, 0xD2] |>.puts [(0xD234, 0x9B)]
    s.after 1 = some (s |>.setReg .a 0x9B |>.setPc 0xC003 |>.total 4) := by rfl

/-- PUSH BC (2.1 #10). -/
theorem test_load_10 :
    let s := fixture.code [0xC5] |>.setPair .bc 0x1234
    s.after 1 = some (s |>.setSp 0xFFFC |>.setPc 0xC001 |>.puts [(0xFFFC, 0x34), (0xFFFD, 0x12)] |>.total 4) := by rfl

/-- POP AF masks F low nibble (2.1 #11). -/
theorem test_load_11 :
    let s := fixture.code [0xF1] |>.setSp 0xD000 |>.puts [(0xD000, 0xFF), (0xD001, 0x12)]
    s.after 1 = some (s |>.setReg .a 0x12 |>.setFlags (.ofByte 0xF0) |>.setSp 0xD002 |>.setPc 0xC001 |>.total 3) := by rfl

/-- LD SP,HL (2.1 #12). -/
theorem test_load_12 :
    let s := fixture.code [0xF9] |>.setPair .hl 0xC123
    s.after 1 = some (s |>.setSp 0xC123 |>.setPc 0xC001 |>.total 2) := by rfl

/-- LD BC,n16 (cf. source scenario) (2.1 #13). -/
theorem test_load_13 :
    let s := fixture.code [0x01, 0x34, 0x12]
    s.after 1 = some (s |>.setReg .b 0x12 |>.setReg .c 0x34 |>.setPc 0xC003 |>.total 3) := by rfl

/-- ADD A,B half and full carry (2.2 #1). -/
theorem test_alu8_1 :
    let s := fixture.code [0x80] |>.setReg .a 0xFF |>.setReg .b 0x01
    s.after 1 = some (s |>.setReg .a 0x00 |>.setFlags (.ofByte 0xB0) |>.setPc 0xC001 |>.total 1) := by rfl

/-- ADC A,n8 with C=1 (2.2 #3). -/
theorem test_alu8_3 :
    let s := fixture.code [0xCE, 0x0F] |>.setReg .a 0xF0 |>.setFlags (.ofByte 0x10)
    s.after 1 = some (s |>.setReg .a 0x00 |>.setFlags (.ofByte 0xB0) |>.setPc 0xC002 |>.total 2) := by rfl

/-- ADC A,n8 carry-in makes 0x100 (2.2 #4). -/
theorem test_alu8_4 :
    let s := fixture.code [0xCE, 0xFF] |>.setReg .a 0x00 |>.setFlags (.ofByte 0x10)
    s.after 1 = some (s |>.setFlags (.ofByte 0xB0) |>.setPc 0xC002 |>.total 2) := by rfl

/-- SUB n8 borrow (2.2 #6). -/
theorem test_alu8_6 :
    let s := fixture.code [0xD6, 0x01] |>.setReg .a 0x00
    s.after 1 = some (s |>.setReg .a 0xFF |>.setFlags (.ofByte 0x70) |>.setPc 0xC002 |>.total 2) := by rfl

/-- SBC A,B with C=1 (2.2 #7). -/
theorem test_alu8_7 :
    let s := fixture.code [0x98] |>.setReg .a 0x10 |>.setReg .b 0x0F |>.setFlags (.ofByte 0x10)
    s.after 1 = some (s |>.setReg .a 0x00 |>.setFlags (.ofByte 0xE0) |>.setPc 0xC001 |>.total 1) := by rfl

/-- AND n8 zero (2.2 #9). -/
theorem test_alu8_9 :
    let s := fixture.code [0xE6, 0x0F] |>.setReg .a 0xF0 |>.setFlags (.ofByte 0x50)
    s.after 1 = some (s |>.setReg .a 0x00 |>.setFlags (.ofByte 0xA0) |>.setPc 0xC002 |>.total 2) := by rfl

/-- XOR A (2.2 #10). -/
theorem test_alu8_10 :
    let s := fixture.code [0xAF] |>.setReg .a 0x5A |>.setFlags (.ofByte 0x70)
    s.after 1 = some (s |>.setReg .a 0x00 |>.setFlags (.ofByte 0x80) |>.setPc 0xC001 |>.total 1) := by rfl

/-- OR (HL) (2.2 #11). -/
theorem test_alu8_11 :
    let s := fixture.code [0xB6] |>.setReg .a 0x00 |>.setPair .hl 0xD000 |>.puts [(0xD000, 0x00)]
    s.after 1 = some (s |>.setFlags (.ofByte 0x80) |>.setPc 0xC001 |>.total 2) := by rfl

/-- CP n8 equal keeps A (2.2 #13). -/
theorem test_alu8_13 :
    let s := fixture.code [0xFE, 0x3F] |>.setReg .a 0x3F
    s.after 1 = some (s |>.setFlags (.ofByte 0xC0) |>.setPc 0xC002 |>.total 2) := by rfl

/-- INC A from FF keeps C (2.2 #14). -/
theorem test_alu8_14 :
    let s := fixture.code [0x3C] |>.setReg .a 0xFF |>.setFlags (.ofByte 0x10)
    s.after 1 = some (s |>.setReg .a 0x00 |>.setFlags (.ofByte 0xB0) |>.setPc 0xC001 |>.total 1) := by rfl

/-- DEC B from 01 (source property) (2.2 #16). -/
theorem test_alu8_16 :
    let s := fixture.code [0x05] |>.setReg .b 0x01
    s.after 1 = some (s |>.setFlags (.ofByte 0xC0) |>.setReg .b 0x00 |>.setPc 0xC001 |>.total 1) := by rfl

/-- INC (HL) (2.2 #18). -/
theorem test_alu8_18 :
    let s := fixture.code [0x34] |>.setPair .hl 0xD000 |>.puts [(0xD000, 0x7F)]
    s.after 1 = some (s |>.setFlags (.ofByte 0x20) |>.setPc 0xC001 |>.puts [(0xD000, 0x80)] |>.total 3) := by rfl

/-- DAA after 0x15+0x27 (2.2 #19). -/
theorem test_alu8_19 :
    let s := fixture.code [0x27] |>.setReg .a 0x3C |>.setFlags (.ofByte 0x00)
    s.after 1 = some (s |>.setReg .a 0x42 |>.setPc 0xC001 |>.total 1) := by rfl

/-- DAA after 0x99+0x01 (2.2 #20). -/
theorem test_alu8_20 :
    let s := fixture.code [0x27] |>.setReg .a 0x9A |>.setFlags (.ofByte 0x00)
    s.after 1 = some (s |>.setReg .a 0x00 |>.setFlags (.ofByte 0x90) |>.setPc 0xC001 |>.total 1) := by rfl

/-- DAA after 0x10-0x01 (2.2 #22). -/
theorem test_alu8_22 :
    let s := fixture.code [0x27] |>.setReg .a 0x0F |>.setFlags (.ofByte 0x60)
    s.after 1 = some (s |>.setReg .a 0x09 |>.setFlags (.ofByte 0x40) |>.setPc 0xC001 |>.total 1) := by rfl

/-- CPL (2.2 #24). -/
theorem test_alu8_24 :
    let s := fixture.code [0x2F] |>.setReg .a 0x35 |>.setFlags (.ofByte 0x90)
    s.after 1 = some (s |>.setReg .a 0xCA |>.setFlags (.ofByte 0xF0) |>.setPc 0xC001 |>.total 1) := by rfl

/-- SCF (2.2 #25). -/
theorem test_alu8_25 :
    let s := fixture.code [0x37] |>.setFlags (.ofByte 0xE0)
    s.after 1 = some (s |>.setFlags (.ofByte 0x90) |>.setPc 0xC001 |>.total 1) := by rfl

/-- CCF (2.2 #26). -/
theorem test_alu8_26 :
    let s := fixture.code [0x3F] |>.setFlags (.ofByte 0xB0)
    s.after 1 = some (s |>.setFlags (.ofByte 0x80) |>.setPc 0xC001 |>.total 1) := by rfl

/-- ADD HL,BC carry from bit 11 (2.3 #1). -/
theorem test_alu16_1 :
    let s := fixture.code [0x09] |>.setPair .hl 0x0FFF |>.setPair .bc 0x0001 |>.setFlags (.ofByte 0x80)
    s.after 1 = some (s |>.setFlags (.ofByte 0xA0) |>.setReg .h 0x10 |>.setReg .l 0x00 |>.setPc 0xC001 |>.total 2) := by rfl

/-- ADD HL,HL self-add carry 15 (2.3 #2). -/
theorem test_alu16_2 :
    let s := fixture.code [0x29] |>.setPair .hl 0x8000
    s.after 1 = some (s |>.setFlags (.ofByte 0x10) |>.setReg .h 0x00 |>.setPc 0xC001 |>.total 2) := by rfl

/-- ADD HL,SP (2.3 #3). -/
theorem test_alu16_3 :
    let s := fixture.code [0x39] |>.setPair .hl 0xFFFF |>.setSp 0x0001
    s.after 1 = some (s |>.setFlags (.ofByte 0x30) |>.setReg .h 0x00 |>.setReg .l 0x00 |>.setPc 0xC001 |>.total 2) := by rfl

/-- INC DE wraps, flags kept (2.3 #4). -/
theorem test_alu16_4 :
    let s := fixture.code [0x13] |>.setPair .de 0xFFFF |>.setFlags (.ofByte 0xF0)
    s.after 1 = some (s |>.setReg .d 0x00 |>.setReg .e 0x00 |>.setPc 0xC001 |>.total 2) := by rfl

/-- DEC SP (2.3 #5). -/
theorem test_alu16_5 :
    let s := fixture.code [0x3B] |>.setSp 0x0000
    s.after 1 = some (s |>.setSp 0xFFFF |>.setPc 0xC001 |>.total 2) := by rfl

/-- ADD SP,e8 negative (2.3 #6). -/
theorem test_alu16_6 :
    let s := fixture.code [0xE8, 0xFF] |>.setSp 0x0001
    s.after 1 = some (s |>.setFlags (.ofByte 0x30) |>.setSp 0x0000 |>.setPc 0xC002 |>.total 4) := by rfl

/-- ADD SP,e8 positive no carry (2.3 #7). -/
theorem test_alu16_7 :
    let s := fixture.code [0xE8, 0x02] |>.setFlags (.ofByte 0xF0) |>.setSp 0xFFF8
    s.after 1 = some (s |>.setFlags (.ofByte 0x00) |>.setSp 0xFFFA |>.setPc 0xC002 |>.total 4) := by rfl

/-- LD HL,SP+e8 half carry (2.3 #8). -/
theorem test_alu16_8 :
    let s := fixture.code [0xF8, 0x01] |>.setSp 0x000F
    s.after 1 = some (s |>.setFlags (.ofByte 0x20) |>.setReg .l 0x10 |>.setPc 0xC002 |>.total 3) := by rfl

/-- RLCA (2.4 #1). -/
theorem test_rotate_1 :
    let s := fixture.code [0x07] |>.setReg .a 0x85
    s.after 1 = some (s |>.setReg .a 0x0B |>.setFlags (.ofByte 0x10) |>.setPc 0xC001 |>.total 1) := by rfl

/-- RLCA of 0 clears Z (2.4 #2). -/
theorem test_rotate_2 :
    let s := fixture.code [0x07] |>.setReg .a 0x00 |>.setFlags (.ofByte 0x80)
    s.after 1 = some (s |>.setFlags (.ofByte 0x00) |>.setPc 0xC001 |>.total 1) := by rfl

/-- RRCA (2.4 #3). -/
theorem test_rotate_3 :
    let s := fixture.code [0x0F] |>.setReg .a 0x01
    s.after 1 = some (s |>.setReg .a 0x80 |>.setFlags (.ofByte 0x10) |>.setPc 0xC001 |>.total 1) := by rfl

/-- RLA with C=1 (2.4 #4). -/
theorem test_rotate_4 :
    let s := fixture.code [0x17] |>.setReg .a 0x80 |>.setFlags (.ofByte 0x10)
    s.after 1 = some (s |>.setReg .a 0x01 |>.setPc 0xC001 |>.total 1) := by rfl

/-- RRA with C=0 (2.4 #5). -/
theorem test_rotate_5 :
    let s := fixture.code [0x1F] |>.setReg .a 0x01
    s.after 1 = some (s |>.setReg .a 0x00 |>.setFlags (.ofByte 0x10) |>.setPc 0xC001 |>.total 1) := by rfl

/-- RLC B (2.4 #6). -/
theorem test_rotate_6 :
    let s := fixture.code [0xCB, 0x00] |>.setReg .b 0x80
    s.after 1 = some (s |>.setFlags (.ofByte 0x10) |>.setReg .b 0x01 |>.setPc 0xC002 |>.total 2) := by rfl

/-- RR (HL) (2.4 #7). -/
theorem test_rotate_7 :
    let s := fixture.code [0xCB, 0x1E] |>.setPair .hl 0xD000 |>.setFlags (.ofByte 0x10) |>.puts [(0xD000, 0x01)]
    s.after 1 = some (s |>.setPc 0xC002 |>.puts [(0xD000, 0x80)] |>.total 4) := by rfl

/-- SLA C to zero (2.4 #8). -/
theorem test_rotate_8 :
    let s := fixture.code [0xCB, 0x21] |>.setReg .c 0x80
    s.after 1 = some (s |>.setFlags (.ofByte 0x90) |>.setReg .c 0x00 |>.setPc 0xC002 |>.total 2) := by rfl

/-- SRA D keeps sign (2.4 #9). -/
theorem test_rotate_9 :
    let s := fixture.code [0xCB, 0x2A] |>.setReg .d 0x81
    s.after 1 = some (s |>.setFlags (.ofByte 0x10) |>.setReg .d 0xC0 |>.setPc 0xC002 |>.total 2) := by rfl

/-- SWAP A of 0 (2.4 #10). -/
theorem test_rotate_10 :
    let s := fixture.code [0xCB, 0x37] |>.setReg .a 0x00 |>.setFlags (.ofByte 0x70)
    s.after 1 = some (s |>.setFlags (.ofByte 0x80) |>.setPc 0xC002 |>.total 2) := by rfl

/-- SRL E (2.4 #11). -/
theorem test_rotate_11 :
    let s := fixture.code [0xCB, 0x3B] |>.setReg .e 0x01
    s.after 1 = some (s |>.setFlags (.ofByte 0x90) |>.setReg .e 0x00 |>.setPc 0xC002 |>.total 2) := by rfl

/-- BIT 7,H set (2.4 #12). -/
theorem test_rotate_12 :
    let s := fixture.code [0xCB, 0x7C] |>.setReg .h 0x80 |>.setFlags (.ofByte 0x10)
    s.after 1 = some (s |>.setFlags (.ofByte 0x30) |>.setPc 0xC002 |>.total 2) := by rfl

/-- BIT 0,(HL) clear (2.4 #13). -/
theorem test_rotate_13 :
    let s := fixture.code [0xCB, 0x46] |>.setPair .hl 0xD000 |>.puts [(0xD000, 0xFE)]
    s.after 1 = some (s |>.setFlags (.ofByte 0xA0) |>.setPc 0xC002 |>.total 3) := by rfl

/-- RES 3,(HL) (2.4 #14). -/
theorem test_rotate_14 :
    let s := fixture.code [0xCB, 0x9E] |>.setPair .hl 0xD000 |>.puts [(0xD000, 0xFF)]
    s.after 1 = some (s |>.setPc 0xC002 |>.puts [(0xD000, 0xF7)] |>.total 4) := by rfl

/-- SET 7,A (2.4 #15). -/
theorem test_rotate_15 :
    let s := fixture.code [0xCB, 0xFF] |>.setReg .a 0x00 |>.setFlags (.ofByte 0xF0)
    s.after 1 = some (s |>.setReg .a 0x80 |>.setPc 0xC002 |>.total 2) := by rfl

/-- JP a16 (2.5 #1). -/
theorem test_control_1 :
    let s := fixture.code [0xC3, 0x00, 0xD0]
    s.after 1 = some (s |>.setPc 0xD000 |>.total 4) := by rfl

/-- JP NZ not taken (2.5 #2). -/
theorem test_control_2 :
    let s := fixture.code [0xC2, 0x00, 0xD0] |>.setFlags (.ofByte 0x80)
    s.after 1 = some (s |>.setPc 0xC003 |>.total 3) := by rfl

/-- JP HL (2.5 #3). -/
theorem test_control_3 :
    let s := fixture.code [0xE9] |>.setPair .hl 0x1234
    s.after 1 = some (s |>.setPc 0x1234 |>.total 1) := by rfl

/-- JR 0xFE (source: -2) (2.5 #4). -/
theorem test_control_4 :
    let s := fixture.code [0x18, 0xFE]
    s.after 1 = some (s |>.total 3) := by rfl

/-- JR 0x02 (source: +2) (2.5 #5). -/
theorem test_control_5 :
    let s := fixture.code [0x18, 0x02]
    s.after 1 = some (s |>.setPc 0xC004 |>.total 3) := by rfl

/-- JR C not taken (source) (2.5 #6). -/
theorem test_control_6 :
    let s := fixture.code [0x38, 0x10]
    s.after 1 = some (s |>.setPc 0xC002 |>.total 2) := by rfl

/-- JR NC taken (2.5 #7). -/
theorem test_control_7 :
    let s := fixture.code [0x30, 0x80]
    s.after 1 = some (s |>.setPc 0xBF82 |>.total 3) := by rfl

/-- CALL a16 (2.5 #8). -/
theorem test_control_8 :
    let s := fixture.code [0xCD, 0x00, 0xD0]
    s.after 1 = some (s |>.setSp 0xFFFC |>.setPc 0xD000 |>.puts [(0xFFFC, 0x03), (0xFFFD, 0xC0)] |>.total 6) := by rfl

/-- CALL Z not taken (2.5 #9). -/
theorem test_control_9 :
    let s := fixture.code [0xCC, 0x00, 0xD0]
    s.after 1 = some (s |>.setPc 0xC003 |>.total 3) := by rfl

/-- RET (2.5 #10). -/
theorem test_control_10 :
    let s := fixture.code [0xC9] |>.setSp 0xFFFC |>.puts [(0xFFFC, 0x34), (0xFFFD, 0x12)]
    s.after 1 = some (s |>.setSp 0xFFFE |>.setPc 0x1234 |>.total 4) := by rfl

/-- RET C taken (2.5 #11). -/
theorem test_control_11 :
    let s := fixture.code [0xD8] |>.setFlags (.ofByte 0x10) |>.setSp 0xFFFC |>.puts [(0xFFFC, 0x34), (0xFFFD, 0x12)]
    s.after 1 = some (s |>.setSp 0xFFFE |>.setPc 0x1234 |>.total 5) := by rfl

/-- RETI sets IME at once (2.5 #12). -/
theorem test_control_12 :
    let s := fixture.code [0xD9] |>.setSp 0xFFFC |>.puts [(0xFFFC, 0x00), (0xFFFD, 0xD0)]
    s.after 1 = some (s |>.setSp 0xFFFE |>.setPc 0xD000 |>.withIme true |>.total 4) := by rfl

/-- RST 0x38 (2.5 #13). -/
theorem test_control_13 :
    let s := fixture.code [0xFF]
    s.after 1 = some (s |>.setSp 0xFFFC |>.setPc 0x0038 |>.puts [(0xFFFC, 0x01), (0xFFFD, 0xC0)] |>.total 4) := by rfl

/-- NOP (2.6 #1). -/
theorem test_system_1 :
    let s := fixture.code [0x00]
    s.after 1 = some (s |>.setPc 0xC001 |>.total 1) := by rfl

/-- DI (2.6 #2). -/
theorem test_system_2 :
    let s := fixture.code [0xF3] |>.withIme true
    s.after 1 = some (s |>.setPc 0xC001 |>.withIme false |>.total 1) := by rfl

/-- EI then NOP: IME after 2 steps (2 steps) (2.6 #3). -/
theorem test_system_3 :
    let s := fixture.code [0xFB, 0x00]
    s.after 2 = some (s |>.setPc 0xC002 |>.withIme true |>.total 2) := by rfl

/-- EI then DI (2 steps) (2.6 #4). -/
theorem test_system_4 :
    let s := fixture.code [0xFB, 0xF3]
    s.after 2 = some (s |>.setPc 0xC002 |>.total 2) := by rfl

/-- HALT (2.6 #5). -/
theorem test_system_5 :
    let s := fixture.code [0x76]
    s.after 1 = some (s |>.setPc 0xC001 |>.hostHalt |>.total 1) := by rfl

/-- HALT idle, 3 steps (3 steps) (2.6 #6). -/
theorem test_system_6 :
    let s := fixture.code [0x76]
    s.after 3 = some (s |>.setPc 0xC001 |>.hostHalt |>.total 3) := by rfl

/-- HALT, IME=0, pending: no bug (2 steps) (2.6 #7). -/
theorem test_system_7 :
    let s := fixture.code [0x76, 0x3C] |>.puts [(0xFFFF, 0x01), (0xFF0F, 0x01)]
    s.after 2 = some (s |>.setReg .a 0x01 |>.setPc 0xC002 |>.total 2) := by rfl

/-- dispatch VBlank + first handler instr (2.6 #8). -/
theorem test_system_8 :
    let s := fixture.code [0x00] |>.withIme true |>.puts [(0xFFFF, 0x01), (0xFF0F, 0x01), (0x0040, 0x3C)]
    s.after 1 = some (s |>.setReg .a 0x01 |>.setSp 0xFFFC |>.setPc 0x0041 |>.withIme false |>.puts [(0xFF0F, 0x00), (0xFFFD, 0xC0)] |>.total 6) := by rfl

/-- IF set but not enabled: nothing (2.6 #10). -/
theorem test_system_10 :
    let s := fixture.code [0x00] |>.withIme true |>.puts [(0xFFFF, 0x02), (0xFF0F, 0x01)]
    s.after 1 = some (s |>.setPc 0xC001 |>.total 1) := by rfl

/-- RETI then dispatch next step (2 steps) (2.6 #11). -/
theorem test_system_11 :
    let s := fixture.code [0xD9] |>.setSp 0xFFFC |>.puts [(0xFFFC, 0x00), (0xFFFD, 0xD0), (0xD000, 0x00), (0xFFFF, 0x04), (0xFF0F, 0x04), (0x0050, 0x00)]
    s.after 2 = some (s |>.setPc 0x0051 |>.puts [(0xFF0F, 0x00)] |>.total 10) := by rfl

/-- dispatch push writes IE (SP=0001) (2.6 #12). -/
theorem test_system_12 :
    let s := fixture.code [0x00] |>.setSp 0x0001 |>.withIme true |>.puts [(0xFFFF, 0x01), (0xFF0F, 0x01), (0x0040, 0x00), (0x0000, 0x00)]
    s.after 1 = some (s |>.setSp 0xFFFF |>.setPc 0x0041 |>.withIme false |>.puts [(0x0000, 0xC0), (0xFF0F, 0x00), (0xFFFF, 0x00)] |>.total 6) := by rfl

/-- CB 37 SWAP A (2.6 #13). -/
theorem test_system_13 :
    let s := fixture.code [0xCB, 0x37] |>.setReg .a 0xAB
    s.after 1 = some (s |>.setReg .a 0xBA |>.setPc 0xC002 |>.total 2) := by rfl
/-! ### Well-formed terms -/

/-- The smoke test: the row PREFIX CB alone is the one ill-formed term (R130, R145). -/
theorem test_wellFormed_refuses_prefix_alone : Instr.prefixCb.WellFormed = false := by decide

theorem test_wellFormed_accepts : Instr.swap_A.WellFormed = true ∧ Instr.stop.WellFormed = true ∧
    Instr.illegalDD.WellFormed = true ∧ (Instr.call 0xFFFF).WellFormed = true := by decide

/-! ### Decoding, from words written out bit by bit -/

/-- Loads: `LD r, r'` 01 ddd sss, `LD r, n8` 00 ddd 110, `LD rr, n16` 00 pp0 001, `PUSH` 11 pp0 101, `POP`
11 pp0 001, and rows with an opcode of their own (R133 to R137, R160 to R186). -/
theorem test_decode_load :
    decode [0b01_011_101] = .ok (.ldE_L, []) ∧
    decode [0b01_110_111, 0xAA] = .ok (.ldAtHL_A, [0xAA]) ∧
    decode [0b01_111_110] = .ok (.ldA_atHL, []) ∧
    decode [0b00_100_110, 0x7F] = .ok (.ldH_n8 0x7F, []) ∧
    decode [0b00_11_0001, 0xCD, 0xAB] = .ok (.ldSP_n16 0xABCD, []) ∧
    decode [0b11_11_0101] = .ok (.pushAF, []) ∧
    decode [0b11_10_0001] = .ok (.popHL, []) ∧
    decode [0x08, 0x34, 0x12] = .ok (.ldA16_SP 0x1234, []) ∧
    decode [0xF2] = .ok (.ldhA_atC, []) ∧
    decode [0x3A] = .ok (.ldA_HLD, []) := by decide

/-- 8-bit arithmetic: 10 ooo sss, 11 ooo 110, `INC` 00 ddd 100, `DEC` 00 ddd 101. -/
theorem test_decode_alu8 :
    decode [0b10_011_010] = .ok (.sbc_D, []) ∧
    decode [0b10_111_110] = .ok (.cp_atHL, []) ∧
    decode [0b11_101_110, 0x0F] = .ok (.xor_n8 0x0F, []) ∧
    decode [0b00_110_100] = .ok (.incAtHL, []) ∧
    decode [0b00_001_101] = .ok (.decC, []) ∧
    decode [0x27] = .ok (.daa, []) := by decide

/-- 16-bit arithmetic: `ADD HL` 00 pp1 001, `INC` 00 pp0 011, `DEC` 00 pp1 011. -/
theorem test_decode_alu16 :
    decode [0b00_01_1001] = .ok (.addHL_DE, []) ∧
    decode [0b00_10_0011] = .ok (.incHL, []) ∧
    decode [0b00_11_1011] = .ok (.decSP, []) ∧
    decode [0xE8, 0x80] = .ok (.addSP_e8 0x80, []) := by decide

/-- The CB table: 00 ooo sss, 01 bbb sss, 10 bbb sss, 11 bbb sss. -/
theorem test_decode_rotate :
    decode [0xCB, 0b00_101_011] = .ok (.sra_E, []) ∧
    decode [0xCB, 0b01_101_110] = .ok (.bit5_atHL, []) ∧
    decode [0xCB, 0b10_010_000] = .ok (.res2_B, []) ∧
    decode [0xCB, 0b11_111_111] = .ok (.set7_A, []) ∧
    decode [0x1F] = .ok (.rra, []) := by decide

/-- Control transfers: `JR cc` 001 cc 000, `JP cc` 110 cc 010, `CALL cc` 110 cc 100, `RET cc` 110 cc 000,
`RST` 11 ttt 111. -/
theorem test_decode_control :
    decode [0b001_11_000, 0xFE] = .ok (.jrC 0xFE, []) ∧
    decode [0b110_10_010, 0x00, 0xD0] = .ok (.jpNC 0xD000, []) ∧
    decode [0b110_00_100, 0x34, 0x12] = .ok (.callNZ 0x1234, []) ∧
    decode [0b110_01_000] = .ok (.retZ, []) ∧
    decode [0b11_101_111] = .ok (.rst28, []) ∧
    decode [0xD9] = .ok (.reti, []) := by decide

/-- System instructions, with STOP's second byte taken by the decoder and not by the fetch. -/
theorem test_decode_system :
    decode [0x10, 0x00] = .ok (.stop, []) ∧
    decode [0x76] = .ok (.halt, []) ∧
    decode [0xF3, 0xFB] = .ok (.di, [0xFB]) ∧
    decode [0xED] = .ok (.illegalED, []) ∧
    decode [] = .error .noBytes ∧
    decode [0xCB] = .error (.missingOperand 0xCB 1) ∧
    decode [0xC3, 0x00] = .error (.missingOperand 0xC3 2) := by decide

/-- The host's numbering: the first byte in bits 7..0 (log 10). -/
theorem test_decodeTableWord :
    decodeTableWord 8 0x41 = some .ldB_C ∧ decodeTableWord 16 0x801E = some (.ldE_n8 0x80) ∧
    decodeTableWord 8 0xC3 = some (.jp 0) := by decide

/-- A placed instruction runs as the next one, from reset. -/
theorem test_withFetchWord :
    ∃ t, step (State.reset.withFetchWord 8 0x3C) = .next t ∧ t.regs.a = 0x02 ∧ t.pc = 0x0101 :=
  ⟨_, rfl, rfl, rfl⟩

/-! ### The bus (2.8) -/

/-- The base map with a cartridge RAM of 8 KiB, PC and SP in work RAM. -/
def w : State :=
  { State.reset with map := baseMap false 0x8000 0x2000, pc := 0xC000, sp := 0xD000 }

/-- The base map with the boot ROM. -/
def wb : State := { w with map := baseMap true 0x8000 0, bootMapped := true, bootRom := [(0x0000, 0x3E)] }

theorem test_bus_unmapped : w.read8 0xE000 = none ∧ w.read8 0xFF04 = none := by decide

theorem test_bus_readOnly : w.write8 0x2000 0x5A = .ok w ∧ w.write8 0xFEA0 0x12 = .ok w ∧
    w.write8 0xFF44 0x99 = .ok w := ⟨rfl, rfl, rfl⟩

theorem test_bus_bootRom : wb.read8 0x0000 = some 0x3E ∧
    ∃ t, wb.write8 0xFF50 0x01 = .ok t ∧ t.read8 0x0000 = some 0x00 ∧ t.read8 0xFF50 = some 0x01 :=
  ⟨rfl, _, rfl, rfl, rfl⟩

set_option maxRecDepth 4000 in
theorem test_bus_dma : ∃ t, (w.puts [(0xC100, 0xA0), (0xC19F, 0x01)]).write8 0xFF46 0xC1 = .ok t ∧
    t.read8 0xFE00 = some 0xA0 ∧ t.read8 0xFE9F = some 0x01 ∧ t.read8 0xFF46 = some 0xC1 :=
  ⟨_, rfl, rfl, rfl, rfl⟩

theorem test_bus_read16 : (w.puts [(0xC000, 0x34), (0xC001, 0x12)]).read16 0xC000 = .ok 0x1234 ∧
    ∃ t, w.read16 0xFFFF = .error (.fatal (.splitAccess 0xFFFF) t) := ⟨rfl, _, rfl⟩

theorem test_bus_map : (∃ t, w.removeMapping 0x0000 0x0200 = .error (.fatal (.mappingNotFound 0x0000 0x0200) t)) ∧
    ∃ t, w.addMapping ⟨0xC000, 0x10, false, .memory⟩ = .error (.fatal (.mappingOverlap 0xC000 0x10) t) :=
  ⟨⟨_, rfl⟩, _, rfl⟩

/-! ### Interrupts, the PPU and reset -/

/-- LCD-STAT goes before Timer, and its IF bit alone is cleared (2.6 #9). -/
theorem test_system_priority :
    ∃ t, (((fixture.code [0x00]).withIme true).puts [(0xFFFF, 0x1F), (0xFF0F, 0x06)]).cpuStep = .next t ∧
      t.pc = 0x0049 ∧ t.sp = 0xFFFC ∧ t.io.iflag = 0x04 ∧ t.ime = false ∧ t.stepCycles = 6 :=
  ⟨_, rfl, rfl, rfl, rfl, rfl, rfl⟩

/-- PPU-1, tick 1. -/
theorem test_ppu_firstTick : (State.reset.tick.io.stat, State.reset.tick.ppu.lineTick) = (0x86, 1) := by
  decide

/-- PPU-1, ticks 455 and 456 of a line, the second of them the first of the next line. -/
theorem test_ppu_lineEnd :
    let s : State := { State.reset with ppu := { State.reset.ppu with mode := .hblank, lineTick := 455 } }
    (s.tick.ppu.mode, s.tick.io.ly, s.tick.io.stat, s.tick.ppu.lineTick) = (.oamSearch, 1, 0x82, 0) := by
  decide

/-- PPU-1, tick 65664: VBlank. -/
theorem test_ppu_vblank :
    let s : State := { State.reset with
      io := { State.reset.io with ly := 143, iflag := 0 },
      ppu := { State.reset.ppu with mode := .hblank, lineTick := 455 } }
    (s.tick.ppu.mode, s.tick.io.ly, s.tick.io.stat, s.tick.io.iflag, s.tick.ppu.frameReady) =
      (.vblank, 144, 0x81, 0x01, true) := by decide

/-- PPU-5: off, then on. -/
theorem test_ppu_off :
    let s : State := { State.reset with
      io := { State.reset.io with lcdc := 0x11, ly := 1, stat := 0x82 },
      ppu := { State.reset.ppu with lineTick := 44 } }
    let on : State := { s.tick with io := { s.tick.io with lcdc := 0x91 } }
    (s.tick.ppu.mode, s.tick.io.ly, s.tick.io.stat, s.tick.ppu.lcdOn) = (.hblank, 0, 0x80, false) ∧
      (on.tick.ppu.mode, on.tick.io.ly, on.tick.ppu.lineTick, on.tick.io.stat, on.tick.ppu.lcdOn) =
        (.oamSearch, 0, 1, 0x86, true) := by decide

/-- PPU-2: the pixels of the low plane 0F and the high plane 33. -/
theorem test_ppu_pixels : tileRow 0x33 0x0F = [0, 0, 2, 2, 1, 1, 3, 3] := by decide

/-- B10, and the header byte of R463. -/
theorem test_reset : resetWith { ResetParams.default with rom := [0x00] } = .error (.romTooShort 1) ∧
    headerFlags 0x00 = .ofByte 0xB0 ∧ headerFlags 0x5C = .ofByte 0x80 := ⟨rfl, rfl, rfl⟩

/-- B1: a read of the host that finds no mapping (R89, R360). -/
theorem test_host_read :
    (∃ t, State.reset.hostRead8 0xE000 = .error (.fatal (.unmapped 0xE000 .read 0x0100) t)) ∧
      State.reset.hostRead8 0xFF40 = .ok 0x91 := ⟨⟨_, rfl⟩, rfl⟩

/-- With the LCD off, a stop request between two steps of the run ends it after one step; one that comes
after the reading lets a step run first (R456, R472). -/
theorem test_stop_in_run :
    let s : State := { State.reset with
      io := { State.reset.io with lcdc := 0x11 }, ppu := { State.reset.ppu with lcdOn := false } }
    (∃ t, runUntilFrame [⟨[], []⟩, ⟨[.setStop true], []⟩, ⟨[], []⟩] s = .stopped t ∧ t.cyclesTotal = 1) ∧
      ∃ t, runUntilFrame [⟨[], [.setStop true]⟩, ⟨[], []⟩] s = .stopped t ∧ t.cyclesTotal = 1 :=
  ⟨⟨_, rfl, rfl⟩, _, rfl, rfl⟩

/-- A collaborator writes the registers the platform added and no others (R106), IE, and bits 4..2 of IF. -/
theorem test_collab :
    let s := State.reset
    let t : State := { s with map := s.map.insert ⟨0xFF04, 2, true, .platform⟩ }
    (t.collab (.writeExtra 0xFF05 0x77)).read8 0xFF05 = some 0x77 ∧
      (t.collab (.writeExtra 0xC000 0x77)).read8 0xC000 = some 0x00 ∧
      (s.collab (.writeRequests 2)).io.iflag = 0xE9 ∧ (s.collab (.writeIe 0x1F)).io.ie = 0x1F := by decide

end Sys2Proof.Tests

/-! ### States that meet the hypotheses of the obligations

`witness_<Name>` shows, for the obligation of that name, that the hypotheses of each of its clauses hold
together at a concrete state, at the ends of their ranges. -/

namespace Sys2Proof.Tests

open Sys2Proof Sys2Proof.Machine

/-- `w` with HL at an address. -/
def hlAt (a : Word) : State := w.setPair .hl a

/-- `w` with the bytes of an instruction at PC. -/
def wc (bs : List Byte) : State := w.code bs

/-- What backs work RAM. -/
def wram : Mapping := ⟨0xC000, 0x2000, false, .memory⟩

theorem w_inv : w.Inv := by
  unfold State.Inv
  decide

theorem witness_DecodeReadsBackEncoding :
    (Instr.callZ 0xFFFF).WellFormed = true ∧ (Instr.set7_A).WellFormed = true := by decide

theorem witness_EveryOpcodeByteDecodes : (0x00 : Byte) ≠ 0x10 ∧ (0xFF : Byte) ≠ 0x10 := by decide

/-- A whole instruction in the last three bytes before 0xE000, and a CPU that can run it. -/
theorem witness_StepRunsDecodedInstruction :
    let i := Instr.call 0xD000
    let s := (w.setPc 0xDFFD).code [0xCD, 0x00, 0xD0]
    i.WellFormed = true ∧ (∀ k < i.fetchedBytes, s.read8 (s.pc + .ofNat 16 k) = (encode i)[k]?) ∧
      s.fault = none ∧ s.refused = none ∧ ¬(s.halted = true ∧ s.pend = 0) ∧ ¬(s.ime = true ∧ s.pend ≠ 0) := by
  decide

/-- The first byte, and the last of two. -/
theorem witness_UnmappedFetchStops :
    let i := Instr.ldB_n8 0x12
    let s := (w.setPc 0xDFFF).code [0x06]
    let s0 := w.setPc 0xE000
    i.WellFormed = true ∧ 0 < i.fetchedBytes ∧ 1 < i.fetchedBytes ∧
      s0.read8 (s0.pc + .ofNat 16 0) = none ∧
      (∀ j < 1, s.read8 (s.pc + .ofNat 16 j) = (encode i)[j]?) ∧
      s.read8 (s.pc + .ofNat 16 1) = none := by decide

/-- The stack in work RAM; a push onto 0xFF46 that copies, and one whose source page is not mapped; a stop
at the first byte and at the second. -/
theorem witness_StepDispatchesInterrupt :
    let s := (w.withIme true).puts [(0xFFFF, 0x01)]
    let s1 : State := { s with
      pc0 := s.pc, stepCycles := 0, ime := false,
      io := { s.io with iflag := s.io.iflag &&& ~~~ (1#8 <<< (firstSource s.pend).bit) } }
    (s.fault = none ∧ s.refused = none ∧ s.ime = true ∧ s.pend ≠ 0 ∧
      s.map.lookup 0xFF0F = some (io 0xFF0F .iflag) ∧
      s.map.lookup (s.sp - 1).toNat = some wram ∧ s.map.lookup (s.sp - 2).toNat = some wram ∧
      hooked (s.sp - 1) = false ∧ hooked (s.sp - 2) = false) ∧
      (∃ t u, (s1.setSp 0xFF46).write8 0xFF46 (hi8 s.pc) = .ok t ∧
        (t.setSp 0xFF45).write8 0xFF45 (lo8 s.pc) = .ok u) ∧
      s.map.lookup (0xE001 - 1 : Word).toNat = none ∧
      (s.map.lookup (0xFF81 - 1 : Word).toNat = some ⟨0xFF80, 127, false, .memory⟩ ∧
        hooked (0xFF81 - 1) = false ∧ s.map.lookup (0xFF81 - 2 : Word).toNat = none) ∧
      (∃ f, (s1.setSp 0xFF46).write8 0xFF46 0xE0 = .error f) ∧
      ∃ t f, (s1.setSp 0xFF47).write8 0xFF47 (hi8 s.pc) = .ok t ∧ (t.setSp 0xFF46).write8 0xFF46 0xE0 = .error f :=
  ⟨by decide, ⟨_, _, rfl, rfl⟩, rfl, by decide, ⟨_, rfl⟩, _, _, rfl, rfl⟩

theorem witness_PriorityAndVectors : (w.puts [(0xFFFF, 0x1F), (0xFF0F, 0x10)]).pend ≠ 0 := by decide

theorem witness_HaltedStepIdlesOrWakes :
    let s := w.hostHalt
    s.fault = none ∧ s.refused = none ∧ s.halted = true ∧ s.pend = 0 ∧
      (s.puts [(0xFFFF, 0x01)]).halted = true ∧ (s.puts [(0xFFFF, 0x01)]).pend ≠ 0 := by decide

theorem witness_EndOfStepCountsEi : w.eiDelay = 0 ∧ ({ w with eiDelay := 1 } : State).eiDelay = 1 ∧
    ({ w with eiDelay := 2 } : State).eiDelay = 0 + 2 := by decide

theorem witness_StepPaysFourTicksPerCycle :
    (∃ t, (wc [0xCD]).cpuStep = .next t) ∧ (∃ f, (wc [0xDD]).cpuStep = .fault f) ∧
      (∃ r, (wc [0x10]).cpuStep = .refused r) ∧ ∃ t, step (wc [0xCD]) = .next t :=
  ⟨⟨_, rfl⟩, ⟨_, rfl⟩, ⟨_, rfl⟩, _, rfl⟩

theorem witness_FaultAndRefusalAreTerminal :
    (∃ e t, step (wc [0xDD]) = .fault (.fatal e t)) ∧ ∃ t, step (wc [0x10]) = .refused (.stop t) :=
  ⟨⟨_, _, rfl⟩, _, rfl⟩

theorem witness_StepStopsOnlyByRule :
    ((wc [0xDD]).Inv ∧ ∃ e t, step (wc [0xDD]) = .fault (.fatal e t)) ∧
      ((wc [0x10]).Inv ∧ ∃ r, step (wc [0x10]) = .refused r) ∧
      ((w.setPc 0xE000).Inv ∧ ∃ e t, step (w.setPc 0xE000) = .fault (.fatal e t)) := by
  refine ⟨⟨?_, _, _, rfl⟩, ⟨?_, _, rfl⟩, ?_, _, _, rfl⟩ <;> (unfold State.Inv; decide)

set_option maxRecDepth 4000 in
theorem witness_ImeChangesOnlyByRule :
    (∃ t, step (wc [0xD9]) = .next t ∧ (wc [0xD9]).ime = false ∧ t.ime = true) ∧
      ∃ t, step ((wc [0xF3]).withIme true) = .next t ∧ t.ime = false :=
  ⟨⟨_, rfl, rfl, rfl⟩, _, rfl, rfl⟩

/-! Loads and stores: the last byte of work RAM, the first of the hole above it, IE, the high page. -/

theorem witness_ByteLoads :
    (∃ v, (hlAt 0xDFFF).read8 (hlAt 0xDFFF).hl = some v) ∧ (hlAt 0xE000).read8 (hlAt 0xE000).hl = none ∧
      (∃ v, w.read8 0xFFFF = some v) ∧ w.read8 0xFF00 ≠ none ∧ w.read8 (0xFF00 + (0x03 : Byte).setWidth 16) = none :=
  ⟨⟨_, rfl⟩, rfl, ⟨_, rfl⟩, by decide, rfl⟩

theorem witness_ByteStores :
    w.map.lookup (0xDFFF : Word).toNat = some wram ∧ hooked 0xDFFF = false ∧
      w.map.lookup (0xE000 : Word).toNat = none ∧ (∃ t, w.write8 0xFF50 0x01 = .ok t) ∧
      (∃ t, w.write8 0xFFFF 0x01 = .ok t) ∧ ∃ f, w.write8 0xE000 0x01 = .error f :=
  ⟨rfl, rfl, rfl, ⟨_, rfl⟩, ⟨_, rfl⟩, _, rfl⟩

theorem witness_SteppingLoadsAndStores :
    (hlAt 0xFFFF).read8 (hlAt 0xFFFF).hl ≠ none ∧ (hlAt 0xE000).read8 (hlAt 0xE000).hl = none ∧
      (hlAt 0xDFFF).map.lookup (hlAt 0xDFFF).hl.toNat = some wram ∧ hooked (hlAt 0xDFFF).hl = false ∧
      (∃ t, (hlAt 0x0000).write8 (hlAt 0x0000).hl (hlAt 0x0000).regs.a = .ok t) ∧
      (∃ f, (hlAt 0xE000).write8 (hlAt 0xE000).hl (hlAt 0xE000).regs.a = .error f) ∧
      (hlAt 0xE000).map.lookup (hlAt 0xE000).hl.toNat = none :=
  ⟨by decide, rfl, rfl, rfl, ⟨_, rfl⟩, ⟨_, rfl⟩, rfl⟩

theorem witness_SixteenBitLoads :
    w.map.lookup (0xDFFE : Word).toNat = some wram ∧ w.map.lookup (0xDFFE + 1 : Word).toNat = some wram ∧
      hooked 0xDFFE = false ∧ hooked (0xDFFE + 1) = false ∧
      (∃ t u, w.write8 0xDFFE (lo8 w.sp) = .ok t ∧ t.write8 (0xDFFE + 1) (hi8 w.sp) = .ok u) ∧
      (∃ f, w.write8 0xE000 (lo8 w.sp) = .error f) ∧
      (∃ t f, w.write8 0xDFFF (lo8 w.sp) = .ok t ∧ t.write8 (0xDFFF + 1) (hi8 w.sp) = .error f) ∧
      w.map.lookup (0xE000 : Word).toNat = none ∧
      w.map.lookup (0xDFFF : Word).toNat = some wram ∧ hooked 0xDFFF = false ∧
      w.map.lookup (0xDFFF + 1 : Word).toNat = none :=
  ⟨rfl, rfl, rfl, rfl, ⟨_, _, rfl, rfl⟩, ⟨_, rfl⟩, ⟨_, _, rfl, rfl⟩, rfl, rfl, rfl, rfl⟩

/-- Pushes that complete, stop on the first write and stop on the second; pops the same. -/
theorem witness_StackTransfers :
    let s := w.setSp 0xE000
    let s1 := w.setSp 0xE001
    let s2 := w.setSp 0xFF81
    s.map.lookup (s.sp - 1).toNat = some wram ∧ s.map.lookup (s.sp - 2).toNat = some wram ∧
      hooked (s.sp - 1) = false ∧ hooked (s.sp - 2) = false ∧
      s1.map.lookup (s1.sp - 1).toNat = none ∧
      s2.map.lookup (s2.sp - 1).toNat = some ⟨0xFF80, 127, false, .memory⟩ ∧ hooked (s2.sp - 1) = false ∧
      s2.map.lookup (s2.sp - 2).toNat = none ∧
      w.read8 w.sp = some 0x00 ∧ w.read8 (w.sp + 1) = some 0x00 ∧ s.read8 s.sp = none ∧
      (w.setSp 0xDFFF).read8 0xDFFF = some 0x00 ∧ (w.setSp 0xDFFF).read8 (0xDFFF + 1) = none := by decide

theorem witness_Pushes_ok : ∃ t u, ({ w with sp := w.sp - 1 } : State).write8 (w.sp - 1) (hi8 w.af) = .ok t ∧
    ({ t with sp := w.sp - 2 } : State).write8 (w.sp - 2) (lo8 w.af) = .ok u := ⟨_, _, rfl, rfl⟩

/-- A push onto 0xFF46 whose source page is not mapped, as its first byte and as its second. -/
theorem witness_Pushes_error :
    let s := w.setSp 0xFF47
    let s' := w.setSp 0xFF48
    (∃ f, ({ s with sp := s.sp - 1 } : State).write8 (s.sp - 1) (hi8 0xE0E0) = .error f) ∧
      ∃ t f, ({ s' with sp := s'.sp - 1 } : State).write8 (s'.sp - 1) (hi8 0xE0E0) = .ok t ∧
        ({ t with sp := s'.sp - 2 } : State).write8 (s'.sp - 2) (lo8 0xE0E0) = .error f :=
  ⟨⟨_, rfl⟩, _, _, rfl, rfl⟩

/-- The three operand forms of the accumulator operations, for AddAndAdc, SubSbcAndCp, LogicOperations. -/
theorem witness_AluForms : (hlAt 0xDFFF).read8 (hlAt 0xDFFF).hl = some 0x00 ∧
    (hlAt 0xE000).read8 (hlAt 0xE000).hl = none := by decide

/-- The (HL) forms that write back, for IncrementAndDecrement, MemoryShifts, BitTests and
BitResetsAndSets. -/
theorem witness_ModifiesHL :
    let s := hlAt 0xDFFF
    let s' := hlAt 0x0000
    s.read8 s.hl = some 0x00 ∧ s.map.lookup s.hl.toNat = some wram ∧ hooked s.hl = false ∧
      (hlAt 0xE000).read8 (hlAt 0xE000).hl = none ∧
      ∃ t, s'.read8 s'.hl = some 0x00 ∧ ({ s' with flags := .ofByte 0xF0 } : State).write8 s'.hl 0x01 = .ok t :=
  ⟨rfl, rfl, rfl, rfl, _, rfl, rfl⟩

/-- A DMA whose source page is not mapped: the (HL) form stops in its write. -/
theorem witness_ModifiesHL_error :
    let s := hlAt 0xFF46
    s.read8 s.hl = some 0xFF ∧ ∃ e, ({ s with flags := .ofByte 0xF0 } : State).write8 s.hl 0xE0 = .error e :=
  ⟨rfl, _, rfl⟩

theorem witness_AccumulatorAdjustments : (w.setFlags (.ofByte 0xB0)).flags.n = false ∧
    (w.setFlags (.ofByte 0xF0)).flags.n = true := by decide

theorem witness_DaaGivesDecimalResult :
    let s := (w.setReg .a (bcd 99)).setReg .b (bcd 99)
    let s0 := (w.setReg .a (bcd 0)).setReg .b (bcd 0)
    99 < 100 ∧ s.regs.a = bcd 99 ∧ s.regs.b = bcd 99 ∧ s0.regs.a = bcd 0 ∧ s0.regs.b = bcd 0 := by decide

theorem witness_SixteenBitArithmetic : (1 : Word) = (if true then 1 else -1) ∧
    (0xFFFF : Word) = (if false then 1 else -1) := by decide

theorem witness_AccumulatorRotates :
    ((Instr.rla, ShiftOp.rl) : Instr × ShiftOp) ∈ [(.rlca, .rlc), (.rrca, .rrc), (.rla, .rl), (.rra, .rr)] := by
  decide

/-- Each condition holds somewhere and fails somewhere: CallsAndRestarts, Returns, Jumps. -/
theorem witness_conditions :
    let s := w.setFlags (.ofByte 0x90)
    let s' := w.setFlags (.ofByte 0x00)
    condHolds (some .z) s = true ∧ condHolds (some .c) s = true ∧ condHolds (some .nz) s = false ∧
      condHolds (some .nc) s = false ∧ condHolds (some .z) s' = false ∧ condHolds (some .c) s' = false ∧
      condHolds (some .nz) s' = true ∧ condHolds (some .nc) s' = true := by decide

theorem witness_SystemInstructions : (w.ime = false ∧ w.eiDelay = 0) ∧
    ((w.withIme true).ime = true ∨ (w.withIme true).eiDelay ≠ 0) ∧
    (({ w with eiDelay := 1 } : State).ime = true ∨ ({ w with eiDelay := 1 } : State).eiDelay ≠ 0) := by decide

theorem witness_PrefixRunsCbRow :
    let s := (hlAt 0xDFFF).code [0x00]
    let s' := (hlAt 0xDFFF).code [0x46]
    s.read8 s.pc = some 0x00 ∧ (0x00 : Byte).extractLsb' 0 3 ≠ 6 ∧
      s'.read8 s'.pc = some 0x46 ∧ (0x46 : Byte).extractLsb' 0 3 = 6 ∧
      s'.map.lookup s'.hl.toNat = some wram ∧ hooked s'.hl = false ∧
      (w.setPc 0xE000).read8 (w.setPc 0xE000).pc = none := by decide

theorem witness_IllegalBytesAndStop : ((Instr.illegalFD, 0xFD) : Instr × Byte) ∈
    [(.illegalD3, 0xD3), (.illegalDB, 0xDB), (.illegalDD, 0xDD), (.illegalE3, 0xE3),
      (.illegalE4, 0xE4), (.illegalEB, 0xEB), (.illegalEC, 0xEC), (.illegalED, 0xED),
      (.illegalF4, 0xF4), (.illegalFC, 0xFC), (.illegalFD, 0xFD)] := by decide

/-! Frames: a row that writes, and keeps, something of each kind; FlagFrame, RegisterFrame, CycleCounts. -/

theorem witness_frames : (Instr.incAtHL).WellFormed = true ∧ (∃ t, exec .incAtHL (hlAt 0xDFFF) = .next t) ∧
    Instr.incAtHL.shape.flagsWritten.c = false ∧ Reg8.a ∉ Instr.incAtHL.shape.regsWritten ∧
    Instr.incAtHL.shape.writesSp = false ∧ Instr.incAtHL.shape.writesPc = false :=
  ⟨rfl, ⟨_, rfl⟩, rfl, by decide, rfl, rfl⟩

set_option maxRecDepth 4000 in
/-- A store to plain memory, a store to 0xFF46 and one to 0xFF50 that acts. -/
theorem witness_MemoryFrame :
    let s := w.setReg .a 0xC1
    let b := wb.setReg .a 0x01
    s.mapOk = true ∧ s.storageOk = true ∧ b.mapOk = true ∧ b.storageOk = true ∧
      (∃ t, exec (.ldA16_A 0xDFFF) s = .next t) ∧ (∃ t, exec (.ldhA8_A 0x46) s = .next t) ∧
      (∃ t, exec (.ldhA8_A 0x50) b = .next t) ∧ 0xFF46 ∈ (Instr.ldhA8_A 0x46).shape.stores s ∧
      ¬ inRange 0xFE00 0xFE9F 0xFEA0 ∧ ¬ inRange 0x0000 0x00FF 0x0100 :=
  ⟨by decide, by decide, by decide, by decide, ⟨_, rfl⟩, ⟨_, rfl⟩, ⟨_, rfl⟩, by decide,
    by unfold inRange; decide, by unfold inRange; decide⟩

theorem witness_BusAccesses :
    w.map.lookup (0xDFFF : Word).toNat = some wram ∧ wb.map.lookup (0x00FF : Word).toNat = some (bootArea true) ∧
      w.map.lookup (0xFFFF : Word).toNat = some (io 0xFFFF .ie) ∧ w.map.lookup (0xE000 : Word).toNat = none ∧
      (bootArea true).readOnly = true ∧ wram.readOnly = false ∧ hooked 0xDFFF = false ∧
      w.read8 0xDFFF = some 0x00 := by decide

set_option maxRecDepth 4000 in
theorem witness_WriteThenReadReturnsValue :
    w.mapOk = true ∧ w.storageOk = true ∧ (∃ t, w.write8 0xFF46 0xC1 = .ok t) ∧
      w.map.lookup (0xFF46 : Word).toNat = some (io 0xFF46 .dma) ∧ (io 0xFF46 .dma).readOnly = false ∧
      (∃ t, w.write8 0xFF45 0x01 = .ok t) ∧ hooked 0xFF45 = false ∧ (0xFF46 : Word) ≠ 0xFF45 :=
  ⟨by decide, by decide, ⟨_, rfl⟩, rfl, rfl, ⟨_, rfl⟩, rfl, by decide⟩

theorem witness_BootHookUnmapsBootRom :
    wb.mapOk = true ∧ (0x01 : Byte) ≠ 0 ∧ wb.bootMapped = true ∧ w.mapOk = true ∧ w.bootMapped = false ∧
      inRange 0x0000 0x00FF 0x00FF ∧ ¬ inRange 0x0000 0x00FF 0x0100 := by
  unfold inRange
  decide

/-- A whole page, a page that ends after 3 bytes, and a page none of which is mapped. -/
theorem witness_DmaHookCopiesPage :
    w.mapOk = true ∧ w.storageOk = true ∧ (∀ k < 160, w.read8 (0xDF00 + .ofNat 16 k) ≠ none) ∧
      (∀ j < 3, w.read8 (0xFF00 + .ofNat 16 j) ≠ none) ∧ w.read8 (0xFF00 + .ofNat 16 3) = none ∧
      w.read8 (0xE000 + .ofNat 16 0) = none := by
  refine ⟨by decide, by decide, ?_, by decide, by decide, by decide⟩
  intro k hk
  have h : (0xDF00 + BitVec.ofNat 16 k : Word).toNat = 0xDF00 + k := by simp [BitVec.toNat_add]; omega
  have : w.map.lookup (0xDF00 + BitVec.ofNat 16 k : Word).toNat = some wram := by
    refine State.lookup_fixed (by decide) (by decide) (Mapping.contains_iff.2 ?_)
    rw [h]
    simp only [wram]
    omega
  rw [State.read8_eq_some this]
  exact Option.some_ne_none _

theorem witness_SixteenBitHostAccesses :
    w.mapOk = true ∧ (∃ m ∈ w.map, m.base ≤ (0xDFFE : Word).toNat ∧ (0xDFFE : Word).toNat + 1 < m.base + m.size) ∧
      ¬(∃ m ∈ w.map, m.base ≤ (0xFFFF : Word).toNat ∧ (0xFFFF : Word).toNat + 1 < m.base + m.size) := by decide

theorem witness_MappingSetOperations :
    let m : Mapping := ⟨0xE000, 0x1E00, false, .memory⟩
    let m' : Mapping := ⟨0xDFFF, 0x10, false, .memory⟩
    w.map.Sorted = true ∧ (∀ n ∈ w.map, n.valid = true) ∧ m.valid = true ∧
      (∀ n ∈ w.map, n.overlaps m = false) ∧ wram ∈ w.map ∧ wram.overlaps m' = true ∧
      (∀ n ∈ w.map, ¬(n.base = 0 ∧ n.size = 0x101)) ∧
      wram.base ≤ 0xDFFF ∧ 0xDFFF < wram.base + wram.size ∧
      (∀ n ∈ w.map, ¬(n.base ≤ 0xE000 ∧ 0xE000 < n.base + n.size)) := by decide

/-- `w` with a PPU in a mode, at a line and a tick of the line. -/
def at_ (mode : Mode) (ly : Byte) (tick : Nat) : State :=
  { w with io := { w.io with ly := ly }, ppu := { w.ppu with mode := mode, lineTick := tick } }

/-- `w` with LCDC bit 7 at 0. -/
def off (on : Bool) : State :=
  { w with io := { w.io with lcdc := 0x11 }, ppu := { w.ppu with lcdOn := on } }

theorem witness_LcdSwitchesOffAndOn :
    (off false).io.lcdc.getLsbD 7 = false ∧ (off false).ppu.lcdOn = false ∧
      (off true).io.lcdc.getLsbD 7 = false ∧ (off true).ppu.lcdOn = true ∧
      w.io.lcdc.getLsbD 7 = true ∧ ({ w with ppu := .init false } : State).ppu.lcdOn = false := by decide

theorem witness_LineAndFrameEnds :
    w.io.lcdc.getLsbD 7 = true ∧ w.ppu.lcdOn = true ∧
      (at_ .oamSearch 0 79).ppu.mode = .oamSearch ∧ (at_ .oamSearch 0 79).ppu.lineTick + 1 = 80 ∧
      (at_ .hblank 143 455).ppu.mode = .hblank ∧ (at_ .hblank 143 455).io.ly + 1 = 144 ∧
      (at_ .vblank 153 455).ppu.mode = .vblank ∧ (at_ .vblank 153 455).ppu.lineTick + 1 = 456 ∧
      (at_ .vblank 153 455).io.ly = 153 := by decide

/-- `w` in PixelTransfer, with a FIFO. -/
def px (fifo : List Shade) (fstate : FetchState) : State :=
  { w with ppu := { w.ppu with mode := .pixelTransfer, lineTick := 100, fifo := fifo, fstate := fstate } }

theorem witness_PixelTransferTicks :
    let s := px [0, 1, 2, 3, 0, 1, 2, 3] .pushToFifo
    let s' := px [0, 1, 2, 3, 0, 1, 2, 3, 0] .pushToFifo
    s.io.lcdc.getLsbD 7 = true ∧ s.ppu.lcdOn = true ∧ s.ppu.mode = .pixelTransfer ∧
      s.ppu.fetchPhase = false ∧ s.ppu.fifo.length ≤ 8 ∧
      s'.ppu.fifo = 0 :: [1, 2, 3, 0, 1, 2, 3, 0] ∧ 8 ≤ [1, 2, 3, 0, 1, 2, 3, 0].length := by decide

theorem witness_FetcherSteps :
    let s := px [0, 1, 2, 3, 0, 1, 2, 3] .pushToFifo
    let s' := px [0, 1, 2, 3, 0, 1, 2, 3, 0] .pushToFifo
    s.mapOk = true ∧ s.io.ly.toNat < 144 ∧ (at_ .pixelTransfer 143 100).io.ly.toNat < 144 ∧
      (px [] .tileNumber).ppu.fstate = .tileNumber ∧ (px [] .tileDataLow).ppu.fstate = .tileDataLow ∧
      (px [] .tileDataHigh).ppu.fstate = .tileDataHigh ∧
      s.ppu.fstate = .pushToFifo ∧ s.ppu.fifo.length ≤ 8 ∧
      s'.ppu.fstate = .pushToFifo ∧ 8 < s'.ppu.fifo.length := by decide

/-- The first tick of line 0, for FrameShowsBackground too, and of line 143. -/
theorem witness_LineDrawsItsRow :
    let s := (at_ .oamSearch 143 0).statUpdate
    w.storageOk = true ∧ w.ppuOk = true ∧ w.ppu.lcdOn = true ∧ w.ppu.mode = .oamSearch ∧
      w.ppu.lineTick = 0 ∧ w.io.ly = 0 ∧ s.storageOk = true ∧ s.ppuOk = true ∧ s.ppu.lcdOn = true ∧
      s.ppu.mode = .oamSearch ∧ s.ppu.lineTick = 0 ∧ s.io.ly = 143 := by decide

/-- The shortest image with a platform byte in the rest of 0x4000-0x7FFF and two in a gap; with a
boot ROM and the largest cartridge RAM; an image too short, a boot ROM of another length, a mapping over
the base map and one over a mapping added before it. -/
theorem witness_ResetBuildsMachine :
    let e : ExtraMapping := ⟨0x4000, true, [0x12]⟩
    let e' : ExtraMapping := ⟨0xFF04, false, [0x34, 0x56]⟩
    let clash : ExtraMapping := ⟨0xFF05, false, [0x00]⟩
    let low : ExtraMapping := ⟨0x00FF, false, [0x00]⟩
    let p : ResetParams := { ResetParams.default with
      rom := List.replicate 0x4000 0x00, ramInit := [(0x8000, 0x01), (0xFFFE, 0x02)], extra := [e, e'] }
    let boot : ResetParams := { p with bootRom := some (List.replicate 256 0x00), cartRamSize := 0x2000 }
    let bad : ResetParams := { p with bootRom := some [0x00], extra := [e, e', clash] }
    let short : ResetParams := { p with rom := [0x00] }
    let under : ResetParams := { p with extra := [low] }
    16384 ≤ p.rom.length ∧ short.rom.length < 16384 ∧ boot.cartRamSize ≤ 0x2000 ∧ p.ramInit.wf = true ∧
      (∀ x ∈ [e, e', clash, low], x.mapping.valid = true) ∧
      BusMap.Apart (baseMap false 0x4000 0 ++ p.extra.map ExtraMapping.mapping) ∧
      BusMap.Apart (baseMap false 0x4000 0x2000 ++ boot.extra.map ExtraMapping.mapping) ∧
      (bad.extra = [e, e'] ++ clash :: [] ∧ ∃ n ∈ baseMap false 0x4000 0 ++ [e, e'].map ExtraMapping.mapping,
        n.overlaps clash.mapping = true) ∧
      (under.extra = [] ++ low :: [] ∧ ∃ n ∈ baseMap false 0x4000 0 ++ [].map ExtraMapping.mapping,
        n.overlaps low.mapping = true) ∧
      p.bootRom = none ∧ (∃ b, boot.bootRom = some b ∧ b.length = 256) ∧
      (∃ b, bad.bootRom = some b ∧ b.length ≠ 256) ∧
      inRam 0x2000 0xBFFF ∧ inRam 0 0xFFFE ∧ inRange 0xFEA0 0xFEFF 0xFEA0 := by
  refine ⟨?_, by decide, by decide, by decide, by decide, ?_, ?_, ⟨rfl, by decide⟩, ⟨rfl, by decide⟩, rfl,
    ⟨_, rfl, List.length_replicate⟩, ⟨_, rfl, by decide⟩, by unfold inRam inRange; decide,
    by unfold inRam inRange; decide, by unfold inRange; decide⟩
  · show 16384 ≤ (List.replicate 0x4000 (0 : Byte)).length
    rw [List.length_replicate]
  all_goals (unfold BusMap.Apart; decide)

set_option maxRecDepth 4000 in
theorem witness_HostOperations :
    let short : ResetParams := { ResetParams.default with rom := [0x00] }
    (∃ e, resetWith short = .error e) ∧
      (∃ e t, w.moves [.setStop true, .reset short] = .fault (.fatal e t)) ∧
      (∃ t, (wc [0x10]).moves [.step] = .refused (.stop t)) ∧ (∀ p, Move.halt ≠ .reset p) ∧
      (∃ u, w.moves [.setStop true] = .next u ∧ u.fault = none ∧ u.refused = none ∧
        u.ppu.frameReady = false ∧ u.stopRequested = true) ∧
      ({ w with ppu := { w.ppu with frameReady := true } } : State).ppu.frameReady = true ∧
      (∃ v, w.moves [.halt, .resume] = .next v ∧ ∃ t, step v = .next t) ∧
      (∃ f, step (wc [0xDD]) = .fault f) ∧ (∃ r, step (wc [0x10]) = .refused r) ∧
      (∃ f, (wc [0xDD]).moves [.step] = .fault f) ∧
      ({ w with fault := some (.splitAccess 0) } : State).fault = some (.splitAccess 0) ∧
      ({ w with refused := some .stop } : State).refused = some .stop :=
  ⟨⟨_, rfl⟩, ⟨_, _, rfl⟩, ⟨_, rfl⟩, by simp, ⟨_, rfl, rfl, rfl, rfl, rfl⟩, rfl, ⟨_, rfl, _, rfl⟩, ⟨_, rfl⟩,
    ⟨_, rfl⟩, ⟨_, rfl⟩, rfl, rfl⟩

/-- A reset that succeeds, for the clause of HostOperations and the move of MovesKeepInvariant. -/
theorem witness_hostReset : ResetParams.default.Allowed ∧ ∃ t w, resetWith ResetParams.default = .ok (t, w) := by
  have h : ¬ ResetParams.default.rom.length < Config.minRomSize := by
    show ¬ (List.replicate Config.maxRomSize (0 : Byte)).length < Config.minRomSize
    rw [List.length_replicate]
    decide
  refine ⟨⟨by decide, by decide⟩, ?_⟩
  unfold resetWith
  rw [if_neg h]
  exact ⟨_, _, rfl⟩

set_option maxRecDepth 4000 in
/-- A step that keeps the LCD on, one that switches it off, and one that dispatches. -/
theorem witness_StepKeepsInvariant :
    (w.Inv ∧ ∃ t, step w = .next t) ∧
      ((wc [0xE0, 0x40]).Inv ∧ ∃ t, step (wc [0xE0, 0x40]) = .next t ∧ t.ppu.lcdOn = false) ∧
      ((w.withIme true).puts [(0xFFFF, 0x01)]).Inv ∧
      ∃ t, step ((w.withIme true).puts [(0xFFFF, 0x01)]) = .next t ∧ t.ime = false := by
  refine ⟨⟨w_inv, _, rfl⟩, ⟨?_, _, rfl, rfl⟩, ?_, _, rfl, rfl⟩ <;> (unfold State.Inv; decide)

theorem witness_MovesKeepInvariant :
    let ms : List Move := [.halt, .collab .requestTimer, .resume, .step, .drain]
    w.Inv ∧ (∀ p, Move.reset p ∈ ms → p.Allowed) ∧ ∃ t, w.moves ms = .next t :=
  ⟨w_inv, by simp, _, rfl⟩

end Sys2Proof.Tests
end

section
/-! Interrupt requests, what is pending and enabled, and the first source (R42, R370, R371, R383). -/

namespace Sys2Proof.Machine

/-! ### The bits of the sources -/

/-- The sources take the low five bits of IE and IF (R42). -/
theorem Source.bit_lt (i : Source) : i.bit < 5 := by cases i <;> decide

/-- Each of the low five bits belongs to a source (R42). -/
theorem Source.exists_bit_eq {k : Nat} (h : k < 5) : ∃ i : Source, i.bit = k :=
  match k, h with
  | 0, _ => ⟨.vblank, rfl⟩
  | 1, _ => ⟨.lcdStat, rfl⟩
  | 2, _ => ⟨.timer, rfl⟩
  | 3, _ => ⟨.serial, rfl⟩
  | 4, _ => ⟨.joypad, rfl⟩

/-! ### Requests -/

/-- A request is latched (R370). -/
@[simp] theorem State.pending_request_same (s : State) (i : Source) :
    (s.request i).pending i = true := by
  have h : i.bit < 8 := i.bit_lt.trans (by decide)
  simp [State.pending, bit8, h]

@[simp] theorem State.request_request_same (s : State) (i : Source) :
    (s.request i).request i = s.request i := by
  simp only [State.request, BitVec.or_assoc, BitVec.or_self]

/-! ### Pending and enabled -/

/-- `pend` bit for bit: IE and IF, under the mask 0x1F of the sources' bits. -/
theorem State.getLsbD_pend (s : State) (k : Nat) :
    s.pend.getLsbD k = (s.io.ie.getLsbD k && s.io.iflag.getLsbD k && decide (k < 5)) := by
  have mask : (0x1F : Byte).getLsbD k = decide (k < 5) := Nat.testBit_two_pow_sub_one 5 k
  rw [State.pend, BitVec.getLsbD_and, BitVec.getLsbD_and, mask]

/-- At the bit of a source, `pend` is `enabled` and `pending` (R371). -/
theorem State.getLsbD_pend_bit (s : State) (i : Source) :
    s.pend.getLsbD i.bit = (s.enabled i && s.pending i) := by
  simp [State.getLsbD_pend, State.enabled, State.pending, i.bit_lt]

/-- `pend` has no bit above those of the sources, so it is not 0 only if some source is pending and
enabled. -/
theorem State.exists_source_of_pend_ne_zero {s : State} (h : s.pend ≠ 0) :
    ∃ i : Source, s.pend.getLsbD i.bit = true := by
  by_contra no_source
  refine h (BitVec.eq_of_getLsbD_eq fun k _ => ?_)
  rw [show (0 : Byte).getLsbD k = false from BitVec.getLsbD_zero]
  by_cases hk : k < 5
  · obtain ⟨i, rfl⟩ := Source.exists_bit_eq hk
    exact Bool.eq_false_iff.2 fun hi => no_source ⟨i, hi⟩
  · simp [State.getLsbD_pend, hk]

/-! ### The first source -/

/-- Where some source's bit is set, the first source's is (R383). -/
theorem getLsbD_firstSource {p : Byte} {i : Source} (h : p.getLsbD i.bit = true) :
    p.getLsbD (firstSource p).bit = true := by
  unfold firstSource
  split_ifs with h0 h1 h2 h3
  · exact h0
  · exact h1
  · exact h2
  · exact h3
  · cases i with
    | vblank => exact absurd h h0
    | lcdStat => exact absurd h h1
    | timer => exact absurd h h2
    | serial => exact absurd h h3
    | joypad => exact h

/-- The first source's bit is at or below every bit that is set (R383). -/
theorem firstSource_bit_le {p : Byte} {k : Nat} (h : p.getLsbD k = true) :
    (firstSource p).bit ≤ k := by
  have above {j : Nat} (hle : j ≤ k) (hj : ¬ p.getLsbD j = true) : j + 1 ≤ k :=
    Nat.lt_of_le_of_ne hle fun e => hj (e ▸ h)
  unfold firstSource
  split_ifs with h0 h1 h2 h3
  · exact k.zero_le
  · exact above k.zero_le h0
  · exact above (above k.zero_le h0) h1
  · exact above (above (above k.zero_le h0) h1) h2
  · exact above (above (above (above k.zero_le h0) h1) h2) h3

/-! ### The obligation -/

/-- Settles O8: the laws of a request, of `pend` and of the first source; the numbers are evaluated. -/
theorem priorityAndVectors : Obligations.PriorityAndVectors := by
  unfold Obligations.PriorityAndVectors
  refine ⟨fun s i => ⟨rfl, s.pending_request_same i, s.request_request_same i⟩,
    State.getLsbD_pend_bit, fun s h => ?_, by decide, by decide⟩
  obtain ⟨i, hi⟩ := State.exists_source_of_pend_ne_zero h
  exact ⟨getLsbD_firstSource hi,
    fun j hj => Bool.eq_false_iff.2 fun set => hj.not_ge (firstSource_bit_le set)⟩

end Sys2Proof.Machine
end

section
/-! Bytes written read back, and the OAM copy (R96, R99). -/

namespace Sys2Proof.Machine

/-! ### The two pages of the copy -/

/-- Byte `k` of the page an OAM copy reads (R96). -/
def dmaSource (v : Byte) (k : Nat) : Word := cat16 v 0x00 + .ofNat 16 k

/-- Byte `k` of OAM, where an OAM copy writes (R96). -/
def oamAddr (k : Nat) : Word := 0xFE00 + .ofNat 16 k

theorem dmaSource_toNat (v : Byte) {k : Nat} (hk : k < 160) :
    (dmaSource v k).toNat = 256 * v.toNat + k := by
  have page : (cat16 v 0x00).toNat = v.toNat * 256 :=
    (BitVec.toNat_append v 0#8).trans (by simp [Nat.shiftLeft_eq])
  have hv := v.isLt
  rw [dmaSource, BitVec.toNat_add, page, BitVec.toNat_ofNat]
  omega

theorem oamAddr_toNat {k : Nat} (hk : k < 160) : (oamAddr k).toNat = 0xFE00 + k := oam_toNat hk

theorem inRange_oamAddr {k : Nat} (hk : k < 160) : inRange 0xFE00 0xFE9F (oamAddr k) := by
  unfold inRange
  rw [oamAddr_toNat hk]
  simp only [BitVec.reduceToNat]
  omega

theorem oamAddr_ne {j k : Nat} (hj : j < 160) (hk : k < 160) (h : j ≠ k) : oamAddr j ≠ oamAddr k := by
  intro e
  have := congrArg BitVec.toNat e
  rw [oamAddr_toNat hj, oamAddr_toNat hk] at this
  omega

/-- The page is OAM itself or no byte of it is in OAM, so a byte of it is none that the copy writes for
another offset. -/
theorem dmaSource_ne_oamAddr (v : Byte) {j k : Nat} (hj : j < 160) (hk : k < 160) (h : j ≠ k) :
    dmaSource v k ≠ oamAddr j := by
  intro e
  have := congrArg BitVec.toNat e
  rw [oamAddr_toNat hj, dmaSource_toNat v hk] at this
  omega

/-! ### The copy after some of its bytes -/

/-- `m` is the memory of `s` after the first `k` bytes of the copy of page `v`. -/
def State.OamCopied (s : State) (v : Byte) (k : Nat) (m : Memory) : Prop :=
  ({ s with mem := m } : State).storageOk = true ∧
  (∀ j < k, ({ s with mem := m } : State).read8 (oamAddr j) = s.read8 (dmaSource v j)) ∧
  ∀ a, (∀ j < k, a ≠ oamAddr j) → ({ s with mem := m } : State).read8 a = s.read8 a

theorem State.oamCopied_zero {s : State} (hs : s.storageOk = true) (v : Byte) : s.OamCopied v 0 s.mem :=
  ⟨hs, fun _ hj => absurd hj (Nat.not_lt_zero _), fun _ _ => rfl⟩

/-- The bytes already copied do not reach the next byte of the page. -/
theorem State.OamCopied.read8_source {s : State} {v : Byte} {k : Nat} {m : Memory}
    (h : s.OamCopied v k m) (hk : k < 160) :
    ({ s with mem := m } : State).read8 (dmaSource v k) = s.read8 (dmaSource v k) := by
  obtain ⟨-, -, frame⟩ := h
  exact frame _ fun j hj => dmaSource_ne_oamAddr v (hj.trans hk) hk hj.ne

/-- One byte more: byte `k` of the page, stored at byte `k` of OAM. -/
theorem State.OamCopied.succ {s : State} (hm : s.mapOk = true) {v b : Byte} {k : Nat} {m : Memory}
    (h : s.OamCopied v k m) (hk : k < 160) (hb : s.read8 (dmaSource v k) = some b) :
    s.OamCopied v (k + 1) (m.write (oamAddr k).toNat b) := by
  obtain ⟨storage, copied, frame⟩ := h
  have hm' : ({ s with mem := m } : State).mapOk = true := hm
  have land := State.lookup_oam hm' hk
  have same := State.read8_writeStore_same storage b land
  have other {a : Word} (ha : a ≠ oamAddr k) := State.read8_writeStore_other hm' storage b land ha
  refine ⟨State.writeStore_storageOk storage .memory _ b, fun j hj => ?_, fun a ha => ?_⟩
  · rcases Nat.lt_succ_iff_lt_or_eq.1 hj with hlt | rfl
    · exact (other (oamAddr_ne (hlt.trans hk) hk hlt.ne)).trans (copied j hlt)
    · exact same.trans hb.symm
  · exact (other (ha k k.lt_succ_self)).trans (frame a fun j hj => ha j (Nat.lt_succ_of_lt hj))

/-- A step of the copy whose source byte is mapped. -/
theorem State.dmaCopy_succ {s : State} (hm : s.mapOk = true) {v b : Byte} {k : Nat} (hk : k < 160)
    (hb : s.read8 (dmaSource v k) = some b) (n : Nat) :
    State.dmaCopy (cat16 v 0x00) (n + 1) k s =
      State.dmaCopy (cat16 v 0x00) n (k + 1) { s with mem := s.mem.write (oamAddr k).toNat b } := by
  unfold dmaSource at hb
  rw [State.dmaCopy, hb]
  dsimp only
  rw [State.store8_oam hm hk]
  rfl

/-- A step of the copy whose source byte no mapping contains stops there (R96, R362). -/
theorem State.dmaCopy_stops {s : State} {v : Byte} {k : Nat} (h : s.read8 (dmaSource v k) = none) (n : Nat) :
    State.dmaCopy (cat16 v 0x00) (n + 1) k s =
      .error (s.fatal (.unmapped (dmaSource v k) .read s.pc0)) := by
  unfold dmaSource at h
  rw [State.dmaCopy, h]
  rfl

/-- While the bytes of the page are mapped, the copy goes on from what it has copied. -/
theorem State.dmaHook_eq_dmaCopy {s : State} (hm : s.mapOk = true) (hs : s.storageOk = true) (v : Byte)
    {k : Nat} (hk : k ≤ 160) (mapped : ∀ j < k, s.read8 (dmaSource v j) ≠ none) :
    ∃ m, s.OamCopied v k m ∧
      s.dmaHook v = State.dmaCopy (cat16 v 0x00) (160 - k) k { s with mem := m } := by
  induction k with
  | zero => exact ⟨s.mem, State.oamCopied_zero hs v, rfl⟩
  | succ k ih =>
    obtain ⟨m, copied, e⟩ := ih (Nat.le_of_succ_le hk) fun j hj => mapped j (Nat.lt_succ_of_lt hj)
    obtain ⟨b, hb⟩ := Option.ne_none_iff_exists'.1 (mapped k k.lt_succ_self)
    have hb' := (copied.read8_source hk).trans hb
    refine ⟨_, copied.succ hm hk hb, ?_⟩
    rw [e, show 160 - k = 160 - (k + 1) + 1 by omega, State.dmaCopy_succ (s := { s with mem := m }) hm hk hb']

/-- A write to 0xFF46 stores the byte and runs the copy (R85, R96). -/
theorem State.write8_dma {s : State} (hm : s.mapOk = true) (v : Byte) :
    s.write8 0xFF46 v = ({ s with io := { s.io with dma := v } } : State).dmaHook v := by
  have reg : s.map.lookup (0xFF46 : Word).toNat = some (Machine.io 0xFF46 .dma) :=
    State.lookup_fixed hm (by decide) (by decide)
  rw [State.write8, reg]
  rfl

/-! ### The obligations -/

/-- Settles O44: the parts of `write8_frame` that speak of the address written and, where no hook runs,
of every other address. -/
theorem writeThenReadReturnsValue : Obligations.WriteThenReadReturnsValue := by
  unfold Obligations.WriteThenReadReturnsValue
  intro s t a v hm hs h
  obtain ⟨frame, -, -, same⟩ := State.write8_frame hm hs h
  refine ⟨same, fun not_hooked b hb => ?_⟩
  have ⟨not_dma, not_boot⟩ : a ≠ 0xFF46 ∧ a ≠ 0xFF50 := by simpa [hooked] using not_hooked
  exact frame b hb (absurd · not_dma) (absurd · not_boot)

/-- Settles O46: the copy goes on to its end, or to the first byte of the page that is not mapped. -/
theorem dmaHookCopiesPage : Obligations.DmaHookCopiesPage := by
  unfold Obligations.DmaHookCopiesPage
  intro s v hm hs s1 src
  rw [State.write8_dma hm]
  refine ⟨fun mapped => ?_, fun k hk mapped unmapped => ?_⟩
  · obtain ⟨m, ⟨-, copied, frame⟩, e⟩ := State.dmaHook_eq_dmaCopy (s := s1) hm hs v le_rfl mapped
    exact ⟨m, e, copied, fun a ha => frame a fun j hj eq => ha (eq ▸ inRange_oamAddr hj)⟩
  · obtain ⟨m, copied, e⟩ := State.dmaHook_eq_dmaCopy (s := s1) hm hs v hk.le mapped
    have stop := (copied.read8_source hk).trans unmapped
    refine ⟨m, ?_, copied.2.1⟩
    rw [e, show 160 - k = 160 - (k + 1) + 1 by omega, State.dmaCopy_stops stop]
    rfl

end Sys2Proof.Machine
end

section
/-! The accumulator operations, in the arithmetic of bytes (R201 to R229). -/

namespace Sys2Proof.Machine

/-! ### The adder and the subtractor with the carry flag as a byte -/

/-- The carry in as the number that the byte of `State.carryByte` stands for. -/
theorem carryIn_eq_toNat (c : Bool) : carryIn c = (if c then 1 else 0 : Byte).toNat := by
  cases c <;> rfl

/-- `AluAdd` (R201) is the sum of bytes with the flags of `addFlags`. -/
theorem aluAdd_eq (a b : Byte) (c : Bool) :
    aluAdd a b c = (a + b + (if c then 1 else 0), addFlags a b (if c then 1 else 0)) := by
  have sum : BitVec.ofNat 8 (a.toNat + b.toNat + carryIn c) = a + b + (if c then 1 else 0) := by
    rw [ofNat_add8, carryIn_eq_toNat, BitVec.ofNat_toNat, BitVec.setWidth_eq]
  simp only [aluAdd, sum]
  rw [carryIn_eq_toNat]
  rfl

/-- `AluSub` (R202) is the difference of bytes with the flags of `subFlags`. -/
theorem aluSub_eq (a b : Byte) (c : Bool) :
    aluSub a b c = (a - b - (if c then 1 else 0), subFlags a b (if c then 1 else 0)) := by
  have difference :
      BitVec.ofInt 8 ((a.toNat : Int) - b.toNat - carryIn c) = a - b - (if c then 1 else 0) := by
    rw [ofInt_sub8, carryIn_eq_toNat, BitVec.ofNat_toNat, BitVec.setWidth_eq]
  simp only [aluSub, difference]
  rw [carryIn_eq_toNat]
  rfl

/-- The adder without a carry in, as ADD uses it (R206). -/
theorem aluAdd_false (a b : Byte) : aluAdd a b false = (a + b, addFlags a b 0) :=
  (aluAdd_eq a b false).trans (congrArg (·, addFlags a b 0) (BitVec.add_zero _))

/-- The subtractor without a borrow in, as SUB and CP use it (R212, R227). -/
theorem aluSub_false (a b : Byte) : aluSub a b false = (a - b, subFlags a b 0) :=
  (aluSub_eq a b false).trans (congrArg (·, subFlags a b 0) (BitVec.sub_zero _))

/-! ### The obligations -/

/-- Settles O21: `AluForms.of_result` with the adder, whose carry in is 0 for ADD and C for ADC. -/
theorem addAndAdc : Obligations.AddAndAdc := by
  unfold Obligations.AddAndAdc
  exact ⟨.of_result fun a v _ => aluAdd_false a v, .of_result aluAdd_eq⟩

/-- Settles O22: `AluForms.of_result` with the subtractor, of which CP takes the flags alone. -/
theorem subSbcAndCp : Obligations.SubSbcAndCp := by
  unfold Obligations.SubSbcAndCp
  exact ⟨.of_result fun a v _ => aluSub_false a v, .of_result aluSub_eq,
    .of_result fun a v _ => congrArg (a, ·.2) (aluSub_false a v)⟩

/-- Settles O23: the three operations of R203 to R205 are the bitwise ones with their flags written out,
so `AluForms.of_result` applies by definition. -/
theorem logicOperations : Obligations.LogicOperations := by
  unfold Obligations.LogicOperations
  exact ⟨.of_result fun _ _ _ => rfl, .of_result fun _ _ _ => rfl, .of_result fun _ _ _ => rfl⟩

end Sys2Proof.Machine
end

section
/-! The 16-bit sums, in the arithmetic of words (R250 to R255). -/

namespace Sys2Proof.Machine

/-! ### The sums and their flags -/

/-- The sum of `ADD HL, rr` (R251) is the sum of words, with the carries out of bits 11 and 15. -/
theorem add16_eq (h v : Word) (f : Flags) :
    add16 h v f = (h + v,
      { f with n := false, h := decide (0x1000 ≤ h.toNat % 0x1000 + v.toNat % 0x1000),
               c := decide (0x10000 ≤ h.toNat + v.toNat) }) := by
  simp only [add16, ofNat_add16]
  rfl

/-- `SpAdd` (R250) adds the offset as a signed number, and its flags are the carries of the raw low bytes. -/
theorem spAdd_eq (sp : Word) (e : Byte) :
    spAdd sp e = (.ofInt 16 ((sp.toNat : Int) + e.toInt),
      ⟨false, false, decide (16 ≤ sp.toNat % 16 + e.toNat % 16),
        decide (256 ≤ sp.toNat % 256 + e.toNat)⟩) := by
  simp only [spAdd, add_sext16]
  rfl

/-! ### The rows as shared operations -/

theorem exec_mkAddHL (p : Pair) (s : State) : exec (Instr.mkAddHL p) s = addHl p s := by
  cases p <;> rfl

/-- `INC rr` and `DEC rr` are one operation, whose step is 1 or -1 (R252, R253). -/
theorem exec_mkInc16_or_mkDec16 (p : Pair) (up : Bool) (s : State) :
    exec (if up then Instr.mkInc16 p else Instr.mkDec16 p) s = stepPair p (if up then 1 else -1) s := by
  cases up <;> cases p <;> rfl

theorem exec_addSP_e8 (e : Byte) (s : State) : exec (.addSP_e8 e) s = spAddTo .sp e 4 s :=
  exec_eq_run _ s

theorem exec_ldHL_SPe8 (e : Byte) (s : State) : exec (.ldHL_SPe8 e) s = spAddTo .hl e 3 s :=
  exec_eq_run _ s

/-! ### The obligation -/

/-- Settles O27: each row is its shared operation, whose sum is `add16_eq`, a step of 1 or -1, or `spAdd_eq`. -/
theorem sixteenBitArithmetic : Obligations.SixteenBitArithmetic := by
  unfold Obligations.SixteenBitArithmetic
  intro s
  refine ⟨fun p => ?_, fun up d step => ?_, fun e => ?_⟩
  · rw [exec_mkAddHL, addHl, add16_eq]
    rfl
  · subst step
    exact ⟨exec_mkInc16_or_mkDec16 .bc up s, exec_mkInc16_or_mkDec16 .de up s,
      exec_mkInc16_or_mkDec16 .hl up s, exec_mkInc16_or_mkDec16 .sp up s⟩
  · constructor
    · rw [exec_addSP_e8, spAddTo, spAdd_eq]
      rfl
    · rw [exec_ldHL_SPe8, spAddTo, spAdd_eq]
      rfl

end Sys2Proof.Machine
end

section
/-! The rows that stop the machine: the illegal opcodes (R142, R346) and STOP (R342). -/

namespace Sys2Proof.Machine

/-- A row of the kind `illegal` answers the fault with its byte and the address before PC (R346). -/
theorem exec_of_shape_illegal {i : Instr} {op : Byte} (h : i.shape = .illegal op) (s : State) :
    exec i s = illegal op s := by
  rw [exec_eq_run, h]
  rfl

/-- The illegal opcodes with their bytes, as R142 lists them. -/
def illegalRows : List (Instr × Byte) :=
  [(.illegalD3, 0xD3), (.illegalDB, 0xDB), (.illegalDD, 0xDD), (.illegalE3, 0xE3),
    (.illegalE4, 0xE4), (.illegalEB, 0xEB), (.illegalEC, 0xEC), (.illegalED, 0xED),
    (.illegalF4, 0xF4), (.illegalFC, 0xFC), (.illegalFD, 0xFD)]

/-- Each row is encoded as its byte alone and is of the kind `illegal` with that byte. -/
theorem encode_and_shape_of_mem_illegalRows :
    ∀ row ∈ illegalRows, encode row.1 = [row.2] ∧ row.1.shape = .illegal row.2 := by decide

theorem exec_stop (s : State) : exec .stop s = .refused (.stop { s with refused := some .stop }) :=
  exec_eq_run _ s

/-- Settles O38: the kind of each of the 11 rows gives its byte to `illegal`, whose fault keeps the rest of
the state; STOP is `exec_stop`. -/
theorem illegalBytesAndStop : Obligations.IllegalBytesAndStop := by
  unfold Obligations.IllegalBytesAndStop
  refine ⟨fun s i op h => ?_, exec_stop⟩
  obtain ⟨encoded, kind⟩ := encode_and_shape_of_mem_illegalRows (i, op) h
  exact ⟨encoded, exec_of_shape_illegal kind s⟩

end Sys2Proof.Machine
end

section
/-! The step of a halted CPU: idle, or awake where something is pending and enabled (R382). -/

namespace Sys2Proof.Machine

/-- With something pending and enabled, `halted` is not seen: the step starts by clearing it. -/
theorem State.cpuStep_of_pend_ne_zero {s : State} (h1 : s.fault = none) (h2 : s.refused = none)
    (hp : s.pend ≠ 0) :
    s.cpuStep = if s.ime then s.beginStep.dispatch s.pend State.runInstr else s.beginStep.runInstr := by
  split
  · next hi => exact State.cpuStep_dispatches h1 h2 ⟨hi, hp⟩
  · next hi => exact State.cpuStep_runs h1 h2 (fun h => hp h.2) (fun h => hi h.1)

/-- A step is its CPU step with the ticks paid: two states with one CPU step have one step. -/
theorem step_congr {s t : State} (h : s.cpuStep = t.cpuStep) : step s = step t := congrArg payTicks h

/-- Settles O9: an idle step pays for one M-cycle; a step with something pending and enabled begins with
`beginStep`, which gives one state whatever `halted` was. -/
theorem haltedStepIdlesOrWakes : Obligations.HaltedStepIdlesOrWakes := by
  unfold Obligations.HaltedStepIdlesOrWakes
  intro s hfault hrefused hhalted
  refine ⟨fun hp => ?_, fun hp => step_congr ?_⟩
  · exact congrArg payTicks (State.cpuStep_idle hfault hrefused ⟨hhalted, hp⟩)
  · rw [State.cpuStep_of_pend_ne_zero hfault hrefused hp,
      State.cpuStep_of_pend_ne_zero (s := { s with halted := false }) hfault hrefused hp]
    rfl

end Sys2Proof.Machine
end

section
/-! The bytes the tile fetcher reads, and its four steps (R424 to R427, R107). -/

namespace Sys2Proof.Machine

/-! ### Reads of VRAM -/

/-- VRAM is always mapped: the bus answers the byte the PPU takes from its storage (R107, log 13). -/
theorem State.read8_vram {s : State} (hm : s.mapOk = true) {a : Word} (ha : inRange 0x8000 0x9FFF a) :
    s.read8 a = some (s.vram a) := by
  obtain ⟨low, high⟩ := ha
  have mapped : s.map.lookup a.toNat = some ⟨0x8000, 0x2000, false, .memory⟩ :=
    State.lookup_fixed hm (by decide)
      (Mapping.contains_iff.2 ⟨low, Nat.lt_succ_of_le high⟩)
  exact State.read8_eq_some mapped

/-! ### The addresses of the fetcher -/

/-- On a visible line the background map is read inside VRAM (R424). -/
theorem State.tileMapAddr_inRange {s : State} (hly : s.io.ly.toNat < 144) :
    inRange 0x8000 0x9FFF s.tileMapAddr := by
  have cell : 32 * (s.io.ly.toNat / 8) + s.ppu.fetchIdx.toNat % 32 < 576 := by omega
  unfold State.tileMapAddr inRange
  split <;> (simp; omega)

/-- A tile takes 16 bytes: of the block at 0x8000 by its unsigned number, or of the one around 0x9000 by
its signed number (R425). -/
theorem tileAddr_bounds (unsigned : Bool) (tile : Byte) :
    let a := if unsigned then 0x8000 + 16 * zext16 tile else 0x9000 + 16 * sext16 tile
    0x8000 ≤ a.toNat ∧ a.toNat ≤ 0x97F0 := by
  revert unsigned tile
  decide

/-- The two planes of a tile's row are read inside VRAM (R425). -/
theorem State.tileRowAddr_inRange (s : State) :
    inRange 0x8000 0x9FFF s.tileRowAddr ∧ inRange 0x8000 0x9FFF (s.tileRowAddr + 1) := by
  have tile := tileAddr_bounds (s.io.lcdc.getLsbD 4) s.ppu.tileNo
  have row : s.io.ly.toNat % 8 < 8 := Nat.mod_lt _ (by decide)
  unfold State.tileRowAddr
  generalize (if s.io.lcdc.getLsbD 4 then _ else _ : Word) = a at tile
  generalize s.io.ly.toNat % 8 = r at row
  obtain ⟨low, high⟩ := tile
  unfold inRange
  simp [BitVec.toNat_add]
  omega

/-! ### The steps -/

theorem State.fetcherStep_tileNumber {s : State} (h : s.ppu.fstate = .tileNumber) :
    s.fetcherStep =
      { s with ppu := { s.ppu with tileNo := s.vram s.tileMapAddr, fstate := .tileDataLow } } := by
  rw [State.fetcherStep, h]

theorem State.fetcherStep_tileDataLow {s : State} (h : s.ppu.fstate = .tileDataLow) :
    s.fetcherStep =
      { s with ppu := { s.ppu with dataLo := s.vram s.tileRowAddr, fstate := .tileDataHigh } } := by
  rw [State.fetcherStep, h]

theorem State.fetcherStep_tileDataHigh {s : State} (h : s.ppu.fstate = .tileDataHigh) :
    s.fetcherStep =
      { s with ppu := { s.ppu with dataHi := s.vram (s.tileRowAddr + 1), fstate := .pushToFifo } } := by
  rw [State.fetcherStep, h]

theorem State.fetcherStep_pushes {s : State} (h : s.ppu.fstate = .pushToFifo)
    (room : s.ppu.fifo.length ≤ 8) :
    s.fetcherStep = { s with ppu := { s.ppu with
      fifo := s.ppu.fifo ++ tileRow s.ppu.dataHi s.ppu.dataLo,
      fetchIdx := s.ppu.fetchIdx + 1, fstate := .tileNumber } } := by
  rw [State.fetcherStep, h]
  exact if_pos room

/-- With more than 8 pixels in the FIFO the push waits (R427). -/
theorem State.fetcherStep_waits {s : State} (h : s.ppu.fstate = .pushToFifo)
    (full : 8 < s.ppu.fifo.length) : s.fetcherStep = s := by
  rw [State.fetcherStep, h]
  exact if_neg (Nat.not_le_of_lt full)

/-! ### The obligation -/

/-- Settles O52: a read step is `fetcherStep` in its state, and the byte it takes from VRAM's storage is the
bus's, since the three addresses lie in VRAM. -/
theorem fetcherSteps : Obligations.FetcherSteps := by
  unfold Obligations.FetcherSteps
  intro s hmap hly
  obtain ⟨lowPlane, highPlane⟩ := s.tileRowAddr_inRange
  refine ⟨fun h => ?_, fun h => ?_, fun h => ?_, State.fetcherStep_pushes, State.fetcherStep_waits⟩
  · exact ⟨_, State.read8_vram hmap (State.tileMapAddr_inRange hly), State.fetcherStep_tileNumber h⟩
  · exact ⟨_, State.read8_vram hmap lowPlane, State.fetcherStep_tileDataLow h⟩
  · exact ⟨_, State.read8_vram hmap highPlane, State.fetcherStep_tileDataHigh h⟩

end Sys2Proof.Machine
end

section
/-! STAT's status bits and the rising edge of its condition (R441, R442). -/

namespace Sys2Proof.Machine

/-! ### The status bits -/

/-- STAT bit for bit: the mode, LY == LYC, and the bits that are kept (R441). -/
theorem getLsbD_statByte (stat : Byte) (mode : Mode) (ly lyc : Byte) {k : Nat} (hk : k < 8) :
    (statByte stat mode ly lyc).getLsbD k =
      if k < 2 then mode.code.getLsbD k else if k = 2 then decide (ly = lyc) else stat.getLsbD k := by
  rw [statByte, BitVec.getLsbD_append, BitVec.getLsbD_append, BitVec.getLsbD_extractLsb']
  by_cases isMode : k < 2
  · rw [if_pos isMode, if_pos isMode]
  · rw [if_neg isMode, if_neg isMode]
    by_cases isLyc : k = 2
    · subst isLyc
      simp
    · have kept : 3 + (k - 2 - 1) = k := by omega
      rw [if_neg isLyc, if_neg (by omega), kept, decide_eq_true (by omega : k - 2 - 1 < 5), Bool.true_and]

/-- Bits 7 to 3 of STAT are kept (R441). -/
theorem statByte_and_kept (stat : Byte) (mode : Mode) (ly lyc : Byte) :
    statByte stat mode ly lyc &&& 0xF8 = stat &&& 0xF8 := by
  refine BitVec.eq_of_getLsbD_eq fun k hk => ?_
  rw [BitVec.getLsbD_and, BitVec.getLsbD_and, getLsbD_statByte _ _ _ _ hk]
  by_cases status : k < 3
  · have masked : (0xF8 : Byte).getLsbD k = false := by interval_cases k <;> rfl
    simp only [masked, Bool.and_false]
  · rw [if_neg (by omega), if_neg (by omega)]

theorem extractLsb'_statByte_mode (stat : Byte) (mode : Mode) (ly lyc : Byte) :
    (statByte stat mode ly lyc).extractLsb' 0 2 = mode.code := by
  refine BitVec.eq_of_getLsbD_eq fun k hk => ?_
  rw [BitVec.getLsbD_extractLsb', Nat.zero_add, getLsbD_statByte _ _ _ _ (by omega), if_pos hk,
    decide_eq_true hk, Bool.true_and]

/-! ### The update -/

/-- The condition is read after the status bits are written: it takes LY == LYC for bit 2 and keeps the
four selecting bits (R442). -/
theorem statCond_statByte (stat : Byte) (mode : Mode) (ly lyc : Byte) :
    statCond (statByte stat mode ly lyc) mode =
      ((stat.getLsbD 6 && decide (ly = lyc)) || (stat.getLsbD 3 && decide (mode = .hblank)) ||
        (stat.getLsbD 4 && decide (mode = .vblank)) || (stat.getLsbD 5 && decide (mode = .oamSearch))) := by
  have bit {k : Nat} (hk : k < 8) := getLsbD_statByte stat mode ly lyc hk
  rw [statCond, bit (by decide : 6 < 8), bit (by decide : 2 < 8), bit (by decide : 3 < 8),
    bit (by decide : 4 < 8), bit (by decide : 5 < 8)]
  rfl

/-- The whole state after the update, with the condition named. -/
theorem State.statUpdate_eq {s : State} {cond : Bool}
    (hc : statCond (statByte s.io.stat s.ppu.mode s.io.ly s.io.lyc) s.ppu.mode = cond) :
    s.statUpdate = { s with
      io := { s.io with
        stat := statByte s.io.stat s.ppu.mode s.io.ly s.io.lyc,
        iflag := if cond && !s.ppu.statLine then s.io.iflag ||| 2 else s.io.iflag },
      ppu := { s.ppu with statLine := cond } } := by
  simp only [State.statUpdate, hc]
  split <;> rfl

/-! ### The obligation -/

/-- Settles O53: `statUpdate_eq` at the selected conditions; what it writes to STAT is read off bit by bit
in `getLsbD_statByte`. -/
theorem statBitsAndRequest : Obligations.StatBitsAndRequest := by
  unfold Obligations.StatBitsAndRequest
  intro s t cond
  have selected : statCond (statByte s.io.stat s.ppu.mode s.io.ly s.io.lyc) s.ppu.mode = cond := by
    rw [statCond_statByte]
    simp only [cond]
    ac_rfl
  have update : t = _ := State.statUpdate_eq selected
  rw [update]
  refine ⟨statByte_and_kept _ _ _ _, getLsbD_statByte _ _ _ _ (by decide), ?_, rfl, rfl⟩
  exact extractLsb'_statByte_mode _ _ _ _

end Sys2Proof.Machine
end

section
/-! The tick with the LCD off and at its switches, and the tick of each mode (R420 to R423, R428 to R432). -/

namespace Sys2Proof.Machine

/-! ### The LCD's switches -/

theorem State.tick_off {s : State} (h : s.io.lcdc.getLsbD 7 = false) :
    s.tick = if s.ppu.lcdOn then s.lcdDisable else s := by
  simp only [State.tick, h, Bool.false_eq_true, if_false]

theorem State.tick_switchesOn {s : State} (h : s.io.lcdc.getLsbD 7 = true) (off : s.ppu.lcdOn = false) :
    s.tick = s.lcdEnable.countTick.modeTick.statUpdate := by
  simp only [State.tick, h, off, Bool.false_eq_true, if_true, if_false]

/-! ### The ticks of the modes -/

theorem State.modeTick_oamSearch {s : State} (h : s.ppu.mode = .oamSearch) :
    s.modeTick = s.oamSearchTick := by rw [State.modeTick, h]

theorem State.modeTick_pixelTransfer {s : State} (h : s.ppu.mode = .pixelTransfer) :
    s.modeTick = s.pixelTransferTick := by rw [State.modeTick, h]

theorem State.modeTick_hblank {s : State} (h : s.ppu.mode = .hblank) :
    s.modeTick = s.hblankTick := by rw [State.modeTick, h]

theorem State.modeTick_vblank {s : State} (h : s.ppu.mode = .vblank) :
    s.modeTick = s.vblankTick := by rw [State.modeTick, h]

/-! ### The switches, and the ends of a search, a line and a frame -/

/-- Settles O49: off, the tick is `lcdDisable` or nothing; on again, it is `oamSearchTick` at line tick 1,
which is not its last. -/
theorem lcdSwitchesOffAndOn : Obligations.LcdSwitchesOffAndOn := by
  unfold Obligations.LcdSwitchesOffAndOn
  intro s
  refine ⟨fun h off => ?_, fun h on => ?_, fun h off => ?_⟩
  · rw [State.tick_off h, off]
    rfl
  · rw [State.tick_off h, on]
    rfl
  · rw [State.tick_switchesOn h off, State.modeTick_oamSearch rfl]
    rfl

/-- Settles O50: the tick is counted and then is the mode's own, whose branches are those of the statement
with the value that was compared put for the count at tick 80 and for LY at line 144. -/
theorem lineAndFrameEnds : Obligations.LineAndFrameEnds := by
  unfold Obligations.LineAndFrameEnds
  intro s h on
  rw [State.tick_on h on]
  refine ⟨fun mode => congrArg State.statUpdate ?_, fun mode => congrArg State.statUpdate ?_,
    fun mode => congrArg State.statUpdate ?_⟩
  · rw [State.modeTick_oamSearch (s := s.countTick) mode]
    refine ite_congr rfl (fun last => ?_) (fun _ => rfl)
    rw [← last]
    rfl
  · rw [State.modeTick_hblank (s := s.countTick) mode]
    refine ite_congr rfl (fun _ => ?_) (fun _ => rfl)
    refine ite_congr rfl (fun entry => ?_) (fun _ => rfl)
    rw [← entry]
    rfl
  · rw [State.modeTick_vblank (s := s.countTick) mode]
    rfl

/-! ### PixelTransfer: the fetcher's part, then the pixel's -/

/-- `t` differs from `s` at most in what the fetcher works on: its own state and the FIFO. -/
def FetcherOnly (s t : State) : Prop :=
  t = { s with ppu := { s.ppu with
    fstate := t.ppu.fstate, fetchIdx := t.ppu.fetchIdx, tileNo := t.ppu.tileNo,
    dataLo := t.ppu.dataLo, dataHi := t.ppu.dataHi, fifo := t.ppu.fifo } }

theorem State.fetcherStep_fetcherOnly (s : State) : FetcherOnly s s.fetcherStep := by
  unfold State.fetcherStep
  cases s.ppu.fstate with
  | pushToFifo => dsimp only; split <;> rfl
  | _ => rfl

/-- What an output and the turn of the phase read, as the fetcher leaves it. -/
theorem FetcherOnly.fields {s t : State} (h : FetcherOnly s t) :
    t.io = s.io ∧ t.ppu.fetchPhase = s.ppu.fetchPhase ∧ t.ppu.x = s.ppu.x ∧
      t.ppu.front = s.ppu.front ∧ t.ppu.mode = s.ppu.mode := by
  unfold FetcherOnly at h
  rw [h]
  exact ⟨rfl, rfl, rfl, rfl, rfl⟩

/-- The fetcher's part of a tick of PixelTransfer: every other tick (R423). -/
def State.fetchTick (s : State) : State := if s.ppu.fetchPhase then s.fetcherStep else s

theorem State.fetchTick_fetcherOnly (s : State) : FetcherOnly s s.fetchTick := by
  unfold State.fetchTick
  split
  · exact s.fetcherStep_fetcherOnly
  · rfl

/-- With at most 8 pixels in the FIFO no pixel leaves it (R423). -/
theorem State.pixelTransferTick_waits {s : State} (few : s.fetchTick.ppu.fifo.length ≤ 8) :
    s.pixelTransferTick =
      { s.fetchTick with ppu := { s.fetchTick.ppu with fetchPhase := !s.ppu.fetchPhase } } := by
  obtain ⟨-, phase, -, -, -⟩ := s.fetchTick_fetcherOnly.fields
  rw [← phase]
  exact if_neg (Nat.not_lt_of_le few)

/-- With more than 8 pixels in the FIFO the front one leaves it, after the fetcher's step (R423, R428). -/
theorem State.pixelTransferTick_outputs {s : State} {i : Shade} {rest : List Shade}
    (fifo : s.fetchTick.ppu.fifo = i :: rest) (many : 8 ≤ rest.length) :
    s.pixelTransferTick = { s.fetchTick with ppu := { s.fetchTick.ppu with
      fetchPhase := !s.ppu.fetchPhase, fifo := rest,
      front := s.ppu.front.write s.io.ly.toNat s.ppu.x (bgShade s.io.bgp i),
      x := s.ppu.x + 1,
      mode := if s.ppu.x + 1 = Config.lineWidth then .hblank else s.ppu.mode } } := by
  have pending : s.fetchTick.flipPhase.ppu.fifo = i :: rest := fifo
  have enough : 8 < s.fetchTick.flipPhase.ppu.fifo.length := by
    rw [pending]
    exact Nat.lt_succ_of_le many
  have output : s.pixelTransferTick = s.fetchTick.flipPhase.outputPixel := if_pos enough
  obtain ⟨io, phase, x, front, mode⟩ := s.fetchTick_fetcherOnly.fields
  rw [output, State.outputPixel, pending]
  simp only [State.flipPhase, io, phase, x, front, mode]

/-- Settles O51: the tick is counted, then the two cases of a tick of PixelTransfer are those of the FIFO the
fetcher leaves. -/
theorem pixelTransferTicks : Obligations.PixelTransferTicks := by
  unfold Obligations.PixelTransferTicks
  intro s h on mode s1 s2
  rw [State.tick_on h on, State.modeTick_pixelTransfer (s := s.countTick) mode]
  refine ⟨fun few => ?_, fun i rest fifo many => ?_⟩
  · exact congrArg State.statUpdate (State.pixelTransferTick_waits (s := s.countTick) few)
  · rw [State.pixelTransferTick_outputs (s := s.countTick) fifo many,
      show s.countTick.ppu.mode = .pixelTransfer from mode]
    rfl

end Sys2Proof.Machine
end

section
/-! The encoder and the decoder, one after the other (R130 to R145). -/

namespace Sys2Proof

open Machine

/-! ### What the decoder answers, by the operand bytes of the opcode -/

theorem decode_of_operandBytes_zero {op : Byte} (h : operandBytes op = 0) (hne : op ≠ 0x10)
    (rest : List Byte) : decode (op :: rest) = .ok (assemble op 0 0, rest) := by
  unfold decode
  simp only [h, if_neg hne]

theorem decode_of_operandBytes_one {op : Byte} (h : operandBytes op = 1) (b1 : Byte)
    (rest : List Byte) : decode (op :: b1 :: rest) = .ok (assemble op b1 0, rest) := by
  unfold decode
  simp only [h]

theorem decode_of_operandBytes_two {op : Byte} (h : operandBytes op = 2) (b1 b2 : Byte)
    (rest : List Byte) : decode (op :: b1 :: b2 :: rest) = .ok (assemble op b1 b2, rest) := by
  unfold decode
  simp only [h]

/-- STOP takes its second byte, whatever it is (R143). -/
theorem decode_stop (b : Byte) (rest : List Byte) : decode (0x10 :: b :: rest) = .ok (.stop, rest) := rfl

/-- Settles O1: the encoding is an opcode and its operand bytes (`Instr.encode_shape`), which is what the
decoder takes apart; 0x10 as an opcode alone is no encoding, since it assembles to STOP, of two bytes. -/
theorem decodeReadsBackEncoding : Obligations.DecodeReadsBackEncoding := by
  unfold Obligations.DecodeReadsBackEncoding
  intro i rest hi
  obtain rfl | ⟨op, e, h, rfl⟩ | ⟨op, b, e, h, rfl⟩ | ⟨op, b1, b2, e, h, rfl⟩ := i.encode_shape hi
  · exact decode_stop 0x00 rest
  · rw [e]
    refine decode_of_operandBytes_zero h (fun stop => ?_) rest
    subst stop
    cases e
  · rw [e]
    exact decode_of_operandBytes_one h b rest
  · rw [e]
    exact decode_of_operandBytes_two h b1 b2 rest

/-! ### The encoding of what the decoder assembles -/

/-- A row of the CB table is encoded as the prefix and the byte that selects it (R144). -/
theorem encode_decodeCb : ∀ c : Byte, encode (decodeCb c) = [0xCB, c] := by decide

/-- A row of the primary table is encoded as its opcode and the operand bytes it takes (R131, R141). -/
theorem encode_decodePrimary (b1 b2 : Byte) {op : Byte} (hstop : op ≠ 0x10) (hcb : op ≠ 0xCB) :
    encode (decodePrimary op b1 b2) =
      match operandBytes op with
      | 0 => [op]
      | 1 => [op, b1]
      | _ => [op, lo8 (cat16 b2 b1), hi8 (cat16 b2 b1)] := by
  have rows : ∀ n < 256, n ≠ 0x10 → n ≠ 0xCB → encode (decodePrimary (.ofNat 8 n) b1 b2) =
      match operandBytes (.ofNat 8 n) with
      | 0 => [.ofNat 8 n]
      | 1 => [.ofNat 8 n, b1]
      | _ => [.ofNat 8 n, lo8 (cat16 b2 b1), hi8 (cat16 b2 b1)] := by
    intro n hn hstop hcb
    interval_cases n <;> first | rfl | contradiction
  have := rows op.toNat op.isLt (fun h => hstop (BitVec.eq_of_toNat_eq h))
    fun h => hcb (BitVec.eq_of_toNat_eq h)
  rwa [BitVec.ofNat_toNat, BitVec.setWidth_eq] at this

/-- What is assembled is encoded as the bytes it was assembled from, STOP apart. -/
theorem encode_assemble (b1 b2 : Byte) {op : Byte} (hstop : op ≠ 0x10) :
    encode (assemble op b1 b2) =
      match operandBytes op with
      | 0 => [op]
      | 1 => [op, b1]
      | _ => [op, b1, b2] := by
  by_cases hcb : op = 0xCB
  · subst hcb
    exact encode_decodeCb b1
  · rw [assemble, if_neg hcb, encode_decodePrimary b1 b2 hstop hcb, cat16, lo8_append, hi8_append]

/-- Settles O2: the decoder takes as many operand bytes as the opcode asks for, and the encoding of what it
assembles is those bytes. -/
theorem everyOpcodeByteDecodes : Obligations.EveryOpcodeByteDecodes := by
  unfold Obligations.EveryOpcodeByteDecodes
  intro op b1 b2 hstop
  have hle := operandBytes_le op
  obtain h | h | h : operandBytes op = 0 ∨ operandBytes op = 1 ∨ operandBytes op = 2 := by omega
  · refine ⟨_, _, decode_of_operandBytes_zero h hstop _, assemble_wellFormed _ _ _, ?_⟩
    rw [encode_assemble _ _ hstop, h]
    rfl
  · refine ⟨_, _, decode_of_operandBytes_one h b1 _, assemble_wellFormed _ _ _, ?_⟩
    rw [encode_assemble _ _ hstop, h]
    rfl
  · refine ⟨_, _, decode_of_operandBytes_two h b1 b2 _, assemble_wellFormed _ _ _, ?_⟩
    rw [encode_assemble _ _ hstop, h]
    rfl

/-! ### The fields of the encodings (R132 to R138) -/

/-- What holds of the eight operands of a register field holds of all. -/
theorem Operand8.forall_of {P : Operand8 → Prop} (hb : P (.reg .b)) (hc : P (.reg .c)) (hd : P (.reg .d))
    (he : P (.reg .e)) (hh : P (.reg .h)) (hl : P (.reg .l)) (hm : P .atHL) (ha : P (.reg .a)) (o : Operand8) :
    P o := by
  obtain r | _ := o
  · cases r <;> assumption
  · exact hm

/-- What holds of the eight values of a 3-bit field holds of all. -/
theorem bit3_forall_of {P : BitVec 3 → Prop} (h0 : P 0) (h1 : P 1) (h2 : P 2) (h3 : P 3) (h4 : P 4)
    (h5 : P 5) (h6 : P 6) (h7 : P 7) (b : BitVec 3) : P b := by
  obtain rfl | rfl | rfl | rfl | rfl | rfl | rfl | rfl := bit3_cases b <;> assumption

theorem encode_mkLoad (d : Operand8) :
    ∀ o : Operand8, encode (Instr.mkLoad d o) = [0x40 + 8 * d.field + o.field] := by
  cases d using Operand8.forall_of <;> exact Operand8.forall_of rfl rfl rfl rfl rfl rfl rfl rfl

theorem encode_mkAlu (op : AluOp) :
    ∀ o : Operand8, encode (Instr.mkAlu op o) = [0x80 + 8 * op.field + o.field] := by
  cases op <;> exact Operand8.forall_of rfl rfl rfl rfl rfl rfl rfl rfl

theorem encode_mkShift (op : ShiftOp) :
    ∀ o : Operand8, encode (Instr.mkShift op o) = [0xCB, 8 * op.field + o.field] := by
  cases op <;> exact Operand8.forall_of rfl rfl rfl rfl rfl rfl rfl rfl

theorem encode_mkBit (b : BitVec 3) :
    ∀ o : Operand8, encode (Instr.mkBit b o) = [0xCB, 0x40 + 8 * b.setWidth 8 + o.field] := by
  cases b using bit3_forall_of <;> exact Operand8.forall_of rfl rfl rfl rfl rfl rfl rfl rfl

theorem encode_mkRes (b : BitVec 3) :
    ∀ o : Operand8, encode (Instr.mkRes b o) = [0xCB, 0x80 + 8 * b.setWidth 8 + o.field] := by
  cases b using bit3_forall_of <;> exact Operand8.forall_of rfl rfl rfl rfl rfl rfl rfl rfl

theorem encode_mkSet (b : BitVec 3) :
    ∀ o : Operand8, encode (Instr.mkSet b o) = [0xCB, 0xC0 + 8 * b.setWidth 8 + o.field] := by
  cases b using bit3_forall_of <;> exact Operand8.forall_of rfl rfl rfl rfl rfl rfl rfl rfl

/-- Settles O3: each family at each value of its field. -/
theorem encodingsFollowTheFields : Obligations.EncodingsFollowTheFields := by
  unfold Obligations.EncodingsFollowTheFields
  refine ⟨encode_mkLoad, fun d n => ?_, encode_mkAlu, fun op n => ?_, ?_, ?_, fun p n => ?_, fun p => ?_,
    fun p => ?_, fun p => ?_, fun p => ?_, fun p => ?_, rfl, fun q e => ?_, fun q a => ?_, fun q a => ?_,
    fun q => ?_, ?_, encode_mkShift, fun b o => ⟨encode_mkBit b o, encode_mkRes b o, encode_mkSet b o⟩⟩
  case refine_1 => cases d using Operand8.forall_of <;> rfl
  case refine_2 => cases op <;> rfl
  case refine_3 => exact Operand8.forall_of rfl rfl rfl rfl rfl rfl rfl rfl
  case refine_4 => exact Operand8.forall_of rfl rfl rfl rfl rfl rfl rfl rfl
  case refine_15 => exact bit3_forall_of rfl rfl rfl rfl rfl rfl rfl rfl
  case refine_11 | refine_12 | refine_13 | refine_14 => cases q <;> rfl
  all_goals cases p <;> rfl

/-- Settles O4: each word is evaluated. -/
theorem vectorWordsDecode : Obligations.VectorWordsDecode := by
  unfold Obligations.VectorWordsDecode
  exact ⟨rfl, rfl, rfl, rfl, rfl, rfl, rfl, rfl, rfl, rfl, rfl, rfl, rfl⟩

end Sys2Proof
end

section
/-! The loads, the stores and the stack transfers (R160 to R186). -/

namespace Sys2Proof.Machine

/-! ### The rows as shared operations -/

theorem exec_mkLoad_reg (r r' : Reg8) (s : State) :
    exec (Instr.mkLoad (.reg r) (.reg r')) s = loadReg r r' s := by
  cases r <;> cases r' <;> rfl

theorem exec_mkLoad_from (r : Reg8) (s : State) :
    exec (Instr.mkLoad (.reg r) .atHL) s = loadFrom r s.hl 2 s := by
  cases r <;> rfl

theorem exec_mkLoad_to (r : Reg8) (s : State) :
    exec (Instr.mkLoad .atHL (.reg r)) s = storeTo s.hl (s.reg r) 2 s := by
  cases r <;> rfl

theorem exec_mkLoadImm (r : Reg8) (n : Byte) (s : State) :
    exec (Instr.mkLoadImm (.reg r) n) s = loadImm r n s := by
  cases r <;> rfl

/-! ### One byte -/

/-- Settles O15: each row is `loadReg` or `loadImm`, whose next state is the one stated. -/
theorem registerLoads : Obligations.RegisterLoads := by
  unfold Obligations.RegisterLoads
  exact fun s => ⟨fun r r' => exec_mkLoad_reg r r' s, fun r n => exec_mkLoadImm r n s⟩

/-- Settles O16: each row is `loadFrom` at its address. -/
theorem byteLoads : Obligations.ByteLoads := by
  unfold Obligations.ByteLoads
  intro s
  exact ⟨fun r => .of_loadFrom (exec_mkLoad_from r s), .of_loadFrom rfl, .of_loadFrom rfl,
    fun a => .of_loadFrom rfl, .of_loadFrom rfl, fun n => .of_loadFrom rfl⟩

/-- Settles O17: each row is `storeTo` at its address. -/
theorem byteStores : Obligations.ByteStores := by
  unfold Obligations.ByteStores
  intro s
  exact ⟨fun r => .of_storeTo (exec_mkLoad_to r s), fun n => .of_storeTo rfl, .of_storeTo rfl,
    .of_storeTo rfl, fun a => .of_storeTo rfl, .of_storeTo rfl, fun n => .of_storeTo rfl⟩

/-! ### Through HL, which then moves (R177 to R180) -/

/-- HL minus 1 is HL plus the step -1 of the rows that count down. -/
theorem add_neg_one (a : Word) : a + -1 = a - 1 := (BitVec.sub_eq_add_neg a 1).symm

theorem loadAStep_some {s : State} {v : Byte} (d : Word) (h : s.read8 s.hl = some v) :
    loadAStep d s = .next { s with
      regs := { s.regs with a := v, h := hi8 (s.hl + d), l := lo8 (s.hl + d) },
      stepCycles := s.stepCycles + 2 } :=
  State.withByte_some h _

theorem loadAStep_none {s : State} (d : Word) (h : s.read8 s.hl = none) :
    loadAStep d s = s.stopsAt s.hl .read :=
  State.withByte_none h _

/-- A store through HL that completed: HL moves in the registers as they were, which a write keeps. -/
theorem storeAStep_ok {s t : State} (d : Word) (h : s.write8 s.hl s.regs.a = .ok t) :
    storeAStep d s = .next { t with
      regs := { s.regs with h := hi8 (s.hl + d), l := lo8 (s.hl + d) },
      stepCycles := s.stepCycles + 2 } := by
  obtain ⟨regs, -⟩ := (State.write8_busOnly h).fields
  rw [storeAStep, State.withStore_ok h, ← regs, ← State.write8_stepCycles h]
  rfl

theorem storeAStep_error {s : State} {f : Fault} (d : Word) (h : s.write8 s.hl s.regs.a = .error f) :
    storeAStep d s = .fault f :=
  State.withStore_error h _

theorem storeAStep_none {s : State} (d : Word) (h : s.map.lookup s.hl.toNat = none) :
    storeAStep d s = s.stopsAt s.hl .write :=
  State.withStore_none _ h _

/-- Settles O18: the rows are `loadAStep` and `storeAStep` with the step 1 or -1. -/
theorem steppingLoadsAndStores : Obligations.SteppingLoadsAndStores := by
  unfold Obligations.SteppingLoadsAndStores
  intro s i w
  constructor
  · intro row
    obtain ⟨d, run, rfl⟩ : ∃ d, exec i s = loadAStep d s ∧ w = s.hl + d := by
      rcases row with ⟨rfl, rfl⟩ | ⟨rfl, rfl⟩
      · exact ⟨1, rfl, rfl⟩
      · exact ⟨-1, rfl, (add_neg_one _).symm⟩
    rw [run]
    exact ⟨fun v h => loadAStep_some d h, loadAStep_none d⟩
  · intro row
    obtain ⟨d, run, rfl⟩ : ∃ d, exec i s = storeAStep d s ∧ w = s.hl + d := by
      rcases row with ⟨rfl, rfl⟩ | ⟨rfl, rfl⟩
      · exact ⟨1, rfl, rfl⟩
      · exact ⟨-1, rfl, (add_neg_one _).symm⟩
    rw [run]
    exact ⟨fun m h plain => storeAStep_ok d (State.write8_plain _ h plain), fun t h => storeAStep_ok d h,
      fun f h => storeAStep_error d h, storeAStep_none d⟩

/-! ### Two bytes (R181 to R183) -/

theorem storeSp_ok {s t u : State} {a : Word} (h1 : s.write8 a (lo8 s.sp) = .ok t)
    (h2 : t.write8 (a + 1) (hi8 s.sp) = .ok u) :
    storeSp a s = .next { u with stepCycles := s.stepCycles + 5 } := by
  rw [storeSp, State.withStore_ok h1, State.withStore_ok h2, ← State.write8_stepCycles h1,
    ← State.write8_stepCycles h2]
  rfl

theorem storeSp_error_snd {s t : State} {a : Word} {f : Fault} (h1 : s.write8 a (lo8 s.sp) = .ok t)
    (h2 : t.write8 (a + 1) (hi8 s.sp) = .error f) : storeSp a s = .fault f := by
  rw [storeSp, State.withStore_ok h1, State.withStore_error h2]

/-- Settles O19: LD rr, n16 and LD SP, HL are evaluated; LD (a16), SP is its two writes in order, of which a
plain one keeps the map for the next. -/
theorem sixteenBitLoads : Obligations.SixteenBitLoads := by
  unfold Obligations.SixteenBitLoads
  refine fun s => ⟨fun n => ⟨rfl, rfl, rfl, rfl⟩, rfl, fun a => ?_⟩
  have row : exec (.ldA16_SP a) s = storeSp a s := rfl
  rw [row]
  have keepsMap (m : Mapping) : (s.stored m a (lo8 s.sp)).map = s.map := (s.stored_map m a _).1
  refine ⟨fun m m' h h' plain plain' => ?_, fun t u => storeSp_ok, fun f h => State.withStore_error h _,
    fun t f => storeSp_error_snd, fun h => State.withStore_none _ h _, fun m h plain h' => ?_⟩
  · exact storeSp_ok (State.write8_plain _ h plain)
      (State.write8_plain _ (by rw [keepsMap]; exact h') plain')
  · rw [storeSp, State.withStore_plain _ h plain]
    exact State.withStore_none _ (by rw [keepsMap]; exact h') _

/-! ### The stack (R160, R161, R184 to R186) -/

theorem Pushes.of_pushPair {i : Instr} {s : State} {p : StackPair} (h : exec i s = pushPair p s) :
    Pushes i s (s.stackPair p) s.pc 4 := .of_push16_same h

theorem Pops.of_popPair {i : Instr} {s : State} {p : StackPair} {out : Word → State}
    (h : exec i s = popPair p s)
    (hout : ∀ v, ((s.setSp (s.sp + 2)).setStackPair p v).done 3 = .next { out v with sp := s.sp + 2 }) :
    Pops i s out := .of_pop16 _ h hout

/-- The four flags as PUSH AF reads them, with 0 below (R32). -/
theorem Flags.toByte_bits (f : Flags) :
    f.toByte.getLsbD 7 = f.z ∧ f.toByte.getLsbD 6 = f.n ∧ f.toByte.getLsbD 5 = f.h ∧
      f.toByte.getLsbD 4 = f.c ∧ f.toByte.extractLsb' 0 4 = 0 := by
  have all : ∀ z n h c : Bool, let v := Flags.toByte ⟨z, n, h, c⟩
      v.getLsbD 7 = z ∧ v.getLsbD 6 = n ∧ v.getLsbD 5 = h ∧ v.getLsbD 4 = c ∧ v.extractLsb' 0 4 = 0 := by
    decide
  exact all f.z f.n f.h f.c

/-- The flags POP AF writes are bits 7 to 4 of the popped word (R186). -/
theorem Flags.ofByte_lo8 (v : Word) :
    Flags.ofByte (lo8 v) = ⟨v.getLsbD 7, v.getLsbD 6, v.getLsbD 5, v.getLsbD 4⟩ := by
  simp [Flags.ofByte, lo8]

/-- Settles O20: PUSH is `push16` of its pair, POP is `pop16` into it. -/
theorem stackTransfers : Obligations.StackTransfers := by
  unfold Obligations.StackTransfers
  intro s
  refine ⟨Pushes.of_pushPair (p := .bc) rfl, Pushes.of_pushPair (p := .de) rfl,
    Pushes.of_pushPair (p := .hl) rfl, Pushes.of_pushPair (p := .af) rfl,
    Pops.of_popPair (p := .bc) rfl fun v => rfl, Pops.of_popPair (p := .de) rfl fun v => rfl,
    Pops.of_popPair (p := .hl) rfl fun v => rfl, Pops.of_popPair (p := .af) rfl fun v => ?_,
    s.flags.toByte_bits⟩
  rw [← Flags.ofByte_lo8]
  rfl

end Sys2Proof.Machine
end

section
/-! INC, DEC and the adjustments of the accumulator (R230 to R237), rotates, shifts and bits (R270 to R296). -/

namespace Sys2Proof.Machine

/-! ### The low nibble -/

theorem nibble_eq_toNat (v : Byte) : nibble v = (v.extractLsb' 0 4).toNat := by
  simp [nibble, BitVec.extractLsb'_toNat]

/-- The tests of H (R230, R232), on the nibble as a field. -/
theorem decide_nibble_eq (v : Byte) (k : BitVec 4) :
    decide (nibble v = k.toNat) = decide (v.extractLsb' 0 4 = k) := by
  simp only [nibble_eq_toNat, BitVec.toNat_inj]

theorem inc8_eq (v : Byte) (f : Flags) :
    inc8 v f = (v + 1,
      { f with z := decide (v + 1 = 0), n := false, h := decide (v.extractLsb' 0 4 = 0xF) }) := by
  rw [← decide_nibble_eq]
  rfl

theorem dec8_eq (v : Byte) (f : Flags) :
    dec8 v f = (v - 1,
      { f with z := decide (v - 1 = 0), n := true, h := decide (v.extractLsb' 0 4 = 0x0) }) := by
  rw [← decide_nibble_eq]
  rfl

/-! ### INC and DEC -/

theorem exec_mkInc8 (o : Operand8) (s : State) : exec (Instr.mkInc8 o) s = modify8 inc8 o s := by
  cases o with
  | reg r => cases r <;> rfl
  | atHL => rfl

theorem exec_mkDec8 (o : Operand8) (s : State) : exec (Instr.mkDec8 o) s = modify8 dec8 o s := by
  cases o with
  | reg r => cases r <;> rfl
  | atHL => rfl

/-- A row that is `modify8` of the byte at HL. -/
theorem ModifiesHL.of_modify8 {i : Instr} {s : State} {op : Byte → Flags → Byte × Flags}
    (h : exec i s = modify8 op .atHL s) :
    ModifiesHL i s (fun v => (op v s.flags).1) (fun v => (op v s.flags).2) 3 := .of_accesses h

/-- Settles O24: each row is `modify8` of `inc8` or `dec8`. -/
theorem incrementAndDecrement : Obligations.IncrementAndDecrement := by
  unfold Obligations.IncrementAndDecrement
  refine fun s => ⟨fun r => ?_, fun r => ?_, ?_, ?_⟩
  · rw [exec_mkInc8, modify8, inc8_eq]
    rfl
  · rw [exec_mkDec8, modify8, dec8_eq]
    rfl
  · have row := ModifiesHL.of_modify8 (exec_mkInc8 .atHL s)
    simp only [inc8_eq] at row
    exact row
  · have row := ModifiesHL.of_modify8 (exec_mkDec8 .atHL s)
    simp only [dec8_eq] at row
    exact row

/-! ### The accumulator's adjustments -/

/-- DAA after an addition (R234). -/
theorem daaResult_add (a : Byte) (f : Flags) (hn : f.n = false) :
    let high : Bool := f.c || decide (0x99 < a.toNat)
    let low : Bool := f.h || decide (9 < a.toNat % 16)
    let res : Byte := a + (if high then 0x60 else 0x00) + (if low then 0x06 else 0x00)
    daaResult a f = (res, { f with z := decide (res = 0), h := false, c := high }) := by
  simp only [daaResult, hn, nibble, BitVec.add_assoc]
  rfl

/-- DAA after a subtraction (R234). -/
theorem daaResult_sub (a : Byte) (f : Flags) (hn : f.n = true) :
    let res : Byte := a - (if f.c then 0x60 else 0x00) - (if f.h then 0x06 else 0x00)
    daaResult a f = (res, { f with z := decide (res = 0), h := false }) := by
  simp only [daaResult, hn, if_true, sub_add_eq_sub_sub]

/-- Settles O25: DAA is `daaResult` after an addition or a subtraction; the others are evaluated. -/
theorem accumulatorAdjustments : Obligations.AccumulatorAdjustments := by
  unfold Obligations.AccumulatorAdjustments
  intro s
  have daa : exec .daa s = execDaa s := rfl
  refine ⟨fun hn => ?_, fun hn => ?_, rfl, rfl, rfl⟩
  · rw [daa, execDaa, daaResult_add _ _ hn]
    rfl
  · rw [daa, execDaa, daaResult_sub _ _ hn]
    rfl

/-! ### Packed decimal numbers -/

theorem bcd_toNat {x : Nat} (hx : x < 100) : (bcd x).toNat = 16 * (x / 10) + x % 10 := by
  rw [bcd, BitVec.toNat_ofNat]
  omega

/-- The decimal carries, of the low digits and of the numbers, are what DAA finds in the binary sum: a
nibble or a byte out of the decimal range, or a carry out of it. -/
theorem decimal_carries {p q p' q' : Nat} (hp : p ≤ 9) (hq : q ≤ 9) (hp' : p' ≤ 9) (hq' : q' ≤ 9) :
    (0xF < (16 * p + q) % 16 + (16 * p' + q') % 16 ∨ 9 < (16 * p + q + (16 * p' + q')) % 256 % 16 ↔
      10 ≤ q + q') ∧
    (0xFF < 16 * p + q + (16 * p' + q') ∨ 0x99 < (16 * p + q + (16 * p' + q')) % 256 ↔
      100 ≤ 10 * p + q + (10 * p' + q')) := by
  constructor <;> omega

/-- The decimal borrows are the binary ones. -/
theorem decimal_borrows {p q p' q' : Nat} (hq : q ≤ 9) (hq' : q' ≤ 9) :
    ((16 * p + q) % 16 < (16 * p' + q') % 16 ↔ q < q') ∧
      (16 * p + q < 16 * p' + q' ↔ 10 * p + q < 10 * p' + q') := by
  constructor <;> omega

/-- A number below 100 is its two digits. -/
theorem exists_digits {x : Nat} (hx : x < 100) :
    ∃ p q, p ≤ 9 ∧ q ≤ 9 ∧ x = 10 * p + q ∧ (bcd x).toNat = 16 * p + q :=
  ⟨x / 10, x % 10, by omega, by omega, by omega, bcd_toNat hx⟩

theorem daaResult_of_decimal_sum {x y : Nat} (hx : x < 100) (hy : y < 100) :
    let r := aluAdd (bcd x) (bcd y) false
    (daaResult r.1 r.2).1 = bcd ((x + y) % 100) ∧ (daaResult r.1 r.2).2.c = decide (100 ≤ x + y) := by
  obtain ⟨p, q, hp, hq, ex, ha⟩ := exists_digits hx
  obtain ⟨p', q', hp', hq', ey, hb⟩ := exists_digits hy
  obtain ⟨low, high⟩ := decimal_carries hp hq hp' hq'
  intro r
  have hsum : r.1.toNat = (16 * p + q + (16 * p' + q')) % 256 := by
    simp [r, aluAdd, carryIn, ha, hb]
  have hlow : (r.2.h || decide (9 < r.1.toNat % 16)) = decide (10 ≤ q + q') := by
    rw [Bool.eq_iff_iff, decide_eq_true_eq, ← low, hsum]
    simp [r, aluAdd, carryIn, nibble, ha, hb]
  have hhigh : (r.2.c || decide (0x99 < r.1.toNat)) = decide (100 ≤ x + y) := by
    rw [Bool.eq_iff_iff, decide_eq_true_eq, ex, ey, ← high, hsum]
    simp [r, aluAdd, carryIn, ha, hb]
  rw [daaResult_add _ _ rfl]
  simp only [hlow, hhigh, decide_eq_true_eq, and_true]
  apply BitVec.eq_of_toNat_eq
  rw [bcd_toNat (Nat.mod_lt _ (by decide))]
  split <;> split <;> simp [BitVec.toNat_add, hsum] <;> omega

theorem daaResult_of_decimal_difference {x y : Nat} (hx : x < 100) (hy : y < 100) :
    let r := aluSub (bcd x) (bcd y) false
    (daaResult r.1 r.2).1 = bcd ((100 + x - y) % 100) ∧ (daaResult r.1 r.2).2.c = decide (x < y) := by
  obtain ⟨p, q, hp, hq, ex, ha⟩ := exists_digits hx
  obtain ⟨p', q', hp', hq', ey, hb⟩ := exists_digits hy
  obtain ⟨low, high⟩ := decimal_borrows (p := p) (p' := p') hq hq'
  intro r
  have hdiff : r.1 = bcd x - bcd y := congrArg Prod.fst (aluSub_false (bcd x) (bcd y))
  have hlow : r.2.h = decide (q < q') := by
    rw [Bool.eq_iff_iff, decide_eq_true_eq, ← low]
    simp [r, aluSub, carryIn, nibble, ha, hb]
  have hhigh : r.2.c = decide (x < y) := by
    rw [Bool.eq_iff_iff, decide_eq_true_eq, ex, ey, ← high]
    simp [r, aluSub, carryIn, ha, hb]
  rw [daaResult_sub _ _ rfl]
  simp only [hlow, hhigh, hdiff, decide_eq_true_eq, and_true]
  apply BitVec.eq_of_toNat_eq
  rw [bcd_toNat (Nat.mod_lt _ (by decide))]
  split <;> split <;> simp [BitVec.toNat_sub, ha, hb] <;> omega

/-- Settles O26: DAA on what the adder or the subtractor leaves in A and the flags. -/
theorem daaGivesDecimalResult : Obligations.DaaGivesDecimalResult := by
  unfold Obligations.DaaGivesDecimalResult
  intro s x y hx hy ha hb
  refine ⟨⟨_, _, rfl, rfl, ?_⟩, ⟨_, _, rfl, rfl, ?_⟩⟩
  · have sum := daaResult_of_decimal_sum hx hy
    rw [← ha, ← hb] at sum
    exact sum
  · have difference := daaResult_of_decimal_difference hx hy
    rw [← ha, ← hb] at difference
    exact difference

/-! ### Rotates and shifts -/

/-- `shiftResult_eq` with the carry flag of a state. -/
theorem shiftResult_carry (op : ShiftOp) (v : Byte) (s : State) :
    shiftResult op v s.flags.c = (shifted op v s.carryByte, shiftedOut op v) := shiftResult_eq op v _

/-- Settles O28: each row is `rotA`. -/
theorem accumulatorRotates : Obligations.AccumulatorRotates := by
  unfold Obligations.AccumulatorRotates
  intro s i op row
  have rotate : exec i s = rotA op s := by
    simp only [List.mem_cons, Prod.mk.injEq, List.not_mem_nil, or_false] at row
    obtain ⟨rfl, rfl⟩ | ⟨rfl, rfl⟩ | ⟨rfl, rfl⟩ | ⟨rfl, rfl⟩ := row <;> rfl
  rw [rotate, rotA, shiftResult_carry]
  rfl

/-- Settles O29: each row is `cbShift` of a register. -/
theorem registerShifts : Obligations.RegisterShifts := by
  unfold Obligations.RegisterShifts
  intro s op r v w
  rw [exec_mkShift, cbShift, cbModify]
  simp only [shiftResult_carry]
  rfl

/-- Settles O30: each row is `cbShift` of the byte at HL. -/
theorem memoryShifts : Obligations.MemoryShifts := by
  unfold Obligations.MemoryShifts
  refine fun s op => .of_accesses ?_
  rw [exec_mkShift, cbShift, cbModify]
  simp only [shiftResult_carry]
  rfl

/-! ### Single bits -/

/-- A bit is 0 where the byte and the mask of the bit have nothing in common. -/
theorem decide_and_bit8 (v : Byte) (b : BitVec 3) :
    decide (v &&& 1#8 <<< b.toNat = 0) = !v.getLsbD b.toNat := by
  have mask_ne_zero : ∀ b : BitVec 3, BitVec.twoPow 8 b.toNat ≠ 0 := by decide
  have mask : 1#8 <<< b.toNat = BitVec.twoPow 8 b.toNat := rfl
  rw [mask, BitVec.and_twoPow]
  cases v.getLsbD b.toNat with
  | false => rfl
  | true => exact decide_eq_false (mask_ne_zero b)

theorem bitFlags_eq (v : Byte) (b : BitVec 3) (f : Flags) :
    bitFlags v b.toNat f =
      { f with z := decide (v &&& 1#8 <<< b.toNat = 0), n := false, h := true } := by
  rw [decide_and_bit8]
  rfl

/-- Settles O31: each row is `cbBit`, which reads its operand and writes the flags alone. -/
theorem bitTests : Obligations.BitTests := by
  unfold Obligations.BitTests
  refine fun s b => ⟨fun r => ?_, fun v hv => ?_, fun hv => ?_⟩
  · rw [exec_mkBit, ← bitFlags_eq]
    rfl
  · rw [exec_mkBit, ← bitFlags_eq]
    exact State.withByte_some hv _
  · rw [exec_mkBit]
    exact State.withByte_none hv _

/-- Settles O32: each row is `cbModify` with the mask of its bit and the flags as they were. -/
theorem bitResetsAndSets : Obligations.BitResetsAndSets := by
  unfold Obligations.BitResetsAndSets
  exact fun s b => ⟨fun r => exec_mkRes b (.reg r) s, fun r => exec_mkSet b (.reg r) s,
    .of_accesses (exec_mkRes b .atHL s), .of_accesses (exec_mkSet b .atHL s)⟩

end Sys2Proof.Machine
end

section
/-! Jumps, calls, returns and restarts (R310 to R321). -/

namespace Sys2Proof.Machine

/-! ### Jumps -/

theorem jumpTo_eq (a : Word) (n : Nat) (s : State) :
    jumpTo a n s = .next { s with pc := a, stepCycles := s.stepCycles + n } := rfl

theorem jumpIf_eq (q : Cond) (a : Word) (taken base : Nat) (s : State) :
    jumpIf q a taken base s = .next
      (if condHolds (some q) s then { s with pc := a, stepCycles := s.stepCycles + taken }
        else { s with stepCycles := s.stepCycles + base }) := by
  rw [condHolds_some, jumpIf]
  split <;> rfl

/-- The target of a relative jump is the signed sum (R314). -/
theorem relTarget_eq (pc : Word) (e : Byte) : relTarget pc e = .ofInt 16 ((pc.toNat : Int) + e.toInt) :=
  add_sext16 pc e

/-- Settles O33: each row is `jumpTo` or `jumpIf` at its target. -/
theorem jumps : Obligations.Jumps := by
  unfold Obligations.Jumps
  refine fun s => ⟨fun a => jumpTo_eq a 4 s, fun q a => ?_, rfl, fun e => ?_, fun q e => ?_⟩
  · rw [exec_mkJpIf, jumpIf_eq]
  · rw [← relTarget_eq]
    exact jumpTo_eq _ 3 s
  · rw [exec_mkJrIf, jumpIf_eq, relTarget_eq]

/-! ### Calls and restarts -/

theorem Pushes.of_callTo {i : Instr} {s : State} {a : Word} {n : Nat} (h : exec i s = callTo a n s) :
    Pushes i s s.pc a n := .of_push16 h

theorem callIf_taken {q : Cond} {s : State} (h : condHolds (some q) s = true) (a : Word) :
    callIf q a s = callTo a 6 s := by
  rw [condHolds_some] at h
  exact if_pos h

theorem callIf_not_taken {q : Cond} {s : State} (h : condHolds (some q) s = false) (a : Word) :
    callIf q a s = s.done 3 := by
  rw [condHolds_some] at h
  exact if_neg (Bool.eq_false_iff.1 h)

theorem rstTarget_eq (t : BitVec 3) : rstTarget t = .ofNat 16 (8 * t.toNat) := by
  have all : ∀ t : BitVec 3, rstTarget t = .ofNat 16 (8 * t.toNat) := by decide
  exact all t

/-- Settles O34: each row that branches is `callTo` of its target. -/
theorem callsAndRestarts : Obligations.CallsAndRestarts := by
  unfold Obligations.CallsAndRestarts
  refine fun s => ⟨fun a => .of_callTo rfl, fun q a h => .of_callTo ?_, fun q a h => ?_, fun t => ?_⟩
  · rw [exec_mkCallIf, callIf_taken h]
  · rw [exec_mkCallIf, callIf_not_taken h]
    rfl
  · rw [← rstTarget_eq]
    exact .of_callTo (exec_mkRst t s)

/-! ### Returns -/

theorem Pops.of_returnFrom {i : Instr} {s : State} {n : Nat} (h : exec i s = returnFrom n s) :
    Pops i s fun v => { s with pc := v, stepCycles := s.stepCycles + n } := .of_pop16 _ h fun _ => rfl

theorem returnIf_taken {q : Cond} {s : State} (h : condHolds (some q) s = true) :
    returnIf q s = returnFrom 5 s := by
  rw [condHolds_some] at h
  exact if_pos h

theorem returnIf_not_taken {q : Cond} {s : State} (h : condHolds (some q) s = false) :
    returnIf q s = s.done 2 := by
  rw [condHolds_some] at h
  exact if_neg (Bool.eq_false_iff.1 h)

theorem exec_reti (s : State) :
    exec .reti s = s.pop16 fun v t => ({ t with pc := v, ime := true, eiDelay := 0 } : State).done 4 := rfl

/-- Settles O35: each row that branches is a pop; RETI writes IME and the delay after it, so a pop that
stops leaves them. -/
theorem returns : Obligations.Returns := by
  unfold Obligations.Returns
  refine fun s => ⟨.of_returnFrom rfl, fun q h => .of_returnFrom ?_, fun q h => ?_,
    .of_pop16 _ (exec_reti s) fun v => rfl⟩
  · rw [exec_mkRetIf, returnIf_taken h]
  · rw [exec_mkRetIf, returnIf_not_taken h]
    rfl

end Sys2Proof.Machine
end

section
/-! System instructions and the prefix (R340 to R346). -/

namespace Sys2Proof.Machine

/-! ### NOP, HALT, DI and EI -/

/-- EI with IME = 0 and no delay armed arms it (R344). -/
theorem execEi_arms {s : State} (hi : s.ime = false) (hd : s.eiDelay = 0) :
    execEi s = .next { s with eiDelay := 2, stepCycles := s.stepCycles + 1 } := by
  rw [execEi, if_pos ⟨hi, hd⟩]
  rfl

theorem execEi_keeps {s : State} (h : s.ime = true ∨ s.eiDelay ≠ 0) :
    execEi s = .next { s with stepCycles := s.stepCycles + 1 } := by
  rw [execEi, if_neg]
  · rfl
  · rintro ⟨hi, hd⟩
    rcases h with h | h
    · rw [hi] at h
      cases h
    · exact h hd

/-- Settles O36: NOP, HALT and DI are evaluated, EI is the two cases of its test. -/
theorem systemInstructions : Obligations.SystemInstructions := by
  unfold Obligations.SystemInstructions
  exact fun s => ⟨rfl, rfl, rfl, execEi_arms, execEi_keeps⟩

/-! ### PREFIX CB -/

theorem operand8_of_ne {k : BitVec 3} (h : k ≠ 6) : ∃ r, operand8 k = .reg r := by
  obtain rfl | rfl | rfl | rfl | rfl | rfl | rfl | rfl := bit3_cases k
  case inr.inr.inr.inr.inr.inr.inl => exact absurd rfl h
  all_goals exact ⟨_, rfl⟩

theorem pick4_cases {α : Type} (k : BitVec 2) (v0 v1 v2 v3 : α) :
    (k = 1 ∧ pick4 k v0 v1 v2 v3 = v1) ∨
      k ≠ 1 ∧ (pick4 k v0 v1 v2 v3 = v0 ∨ pick4 k v0 v1 v2 v3 = v2 ∨ pick4 k v0 v1 v2 v3 = v3) := by
  have values : ∀ k : BitVec 2, k = 0 ∨ k = 1 ∨ k = 2 ∨ k = 3 := by decide
  obtain rfl | rfl | rfl | rfl := values k
  · exact .inr ⟨by decide, .inl rfl⟩
  · exact .inl ⟨rfl, rfl⟩
  · exact .inr ⟨by decide, .inr (.inl rfl)⟩
  · exact .inr ⟨by decide, .inr (.inr rfl)⟩

/-- A row completes in `n` M-cycles and leaves PC alone. -/
def CompletesIn (r : Result) (s : State) (n : Nat) : Prop :=
  ∃ t, r = .next t ∧ t.pc = s.pc ∧ t.stepCycles = s.stepCycles + n

theorem cbModify_reg_completes (f : Byte → Byte) (g : Byte → Flags) (r : Reg8) (s : State) :
    CompletesIn (cbModify f g (.reg r) s) s 2 := ⟨_, rfl, rfl, rfl⟩

theorem cbBit_reg_completes (b : Nat) (r : Reg8) (s : State) : CompletesIn (cbBit b (.reg r) s) s 2 :=
  ⟨_, rfl, rfl, rfl⟩

theorem cbModify_atHL_completes (f : Byte → Byte) (g : Byte → Flags) {s : State} {m : Mapping}
    (h : s.map.lookup s.hl.toNat = some m) (plain : hooked s.hl = false) :
    CompletesIn (cbModify f g .atHL s) s 4 := by
  have row := State.read8_eq_some h
  generalize s.readStore m.store s.hl.toNat = v at row
  obtain ⟨-, -, -, pc, -⟩ := ((s.setFlags (g v)).stored_busOnly m s.hl (f v)).fields
  refine ⟨((s.setFlags (g v)).stored m s.hl (f v)).count 4, ?_, pc, ?_⟩
  · rw [cbModify, State.withByte_some row]
    exact State.withStore_plain (s := s.setFlags (g v)) _ h plain _
  · rw [State.count_stepCycles, State.stored_stepCycles]
    rfl

theorem cbBit_atHL_completes (b : Nat) {s : State} {m : Mapping}
    (h : s.map.lookup s.hl.toNat = some m) : CompletesIn (cbBit b .atHL s) s 3 :=
  ⟨_, State.withByte_some (State.read8_eq_some h) _, rfl, rfl⟩

/-- The CB row of a byte is BIT, or an operation that writes its operand back (R133). -/
theorem cbRow_cases (c : Byte) (s : State) :
    (c.extractLsb' 6 2 = 1 ∧ ∃ b, cbRow c s = cbBit b (operand8 (c.extractLsb' 0 3)) s) ∨
      (c.extractLsb' 6 2 ≠ 1 ∧ ∃ f g, cbRow c s = cbModify f g (operand8 (c.extractLsb' 0 3)) s) := by
  unfold cbRow
  obtain ⟨bit, e⟩ | ⟨bit, e | e | e⟩ := pick4_cases (c.extractLsb' 6 2) _ _ _ _
  · exact .inl ⟨bit, _, e⟩
  · exact .inr ⟨bit, _, _, e⟩
  · exact .inr ⟨bit, _, _, e⟩
  · exact .inr ⟨bit, _, _, e⟩

theorem exec_prefixCb_some {s : State} {c : Byte} (h : s.read8 s.pc = some c) :
    exec .prefixCb s = cbRow c (s.setPc (s.pc + 1)) := State.fetch8_some h _

/-- Settles O37: the prefix is the CB row of the next byte; the row of a register always completes, and one
of (HL) where HL is mapped and no hook runs. -/
theorem prefixRunsCbRow : Obligations.PrefixRunsCbRow := by
  unfold Obligations.PrefixRunsCbRow
  refine fun s => ⟨fun c h => ?_, fun h => State.fetch8_none h _, fun c h reg => ?_,
    fun c m h atHL hm plain => ?_⟩
  · rw [exec_prefixCb_some h]
    exact cbRow_eq c _
  · rw [exec_prefixCb_some h]
    obtain ⟨r, er⟩ := operand8_of_ne reg
    obtain ⟨-, b, e⟩ | ⟨-, f, g, e⟩ := cbRow_cases c (s.setPc (s.pc + 1))
    · rw [e, er]
      exact cbBit_reg_completes b r _
    · rw [e, er]
      exact cbModify_reg_completes f g r _
  · rw [exec_prefixCb_some h]
    obtain ⟨bit, b, e⟩ | ⟨bit, f, g, e⟩ := cbRow_cases c (s.setPc (s.pc + 1))
    · rw [e, atHL, if_pos bit]
      exact cbBit_atHL_completes b (s := s.setPc (s.pc + 1)) hm
    · rw [e, atHL, if_neg bit]
      exact cbModify_atHL_completes f g (s := s.setPc (s.pc + 1)) hm plain

end Sys2Proof.Machine
end

section
/-! What an instruction that completed did: what it may have changed beside the bus, the writes it made, and
its count. One case for each kind of row; the frames follow. -/

namespace Sys2Proof

open Machine

/-! ### The rows of the control state, by their kinds -/

theorem Instr.eq_di_of_shape {i : Instr} (h : i.shape = .di) : i = .di := by
  cases i <;> first | rfl | cases h

theorem Instr.eq_ei_of_shape {i : Instr} (h : i.shape = .ei) : i = .ei := by
  cases i <;> first | rfl | cases h

theorem Instr.eq_reti_of_shape {i : Instr} (h : i.shape = .reti) : i = .reti := by
  cases i <;> first | rfl | cases h

theorem Instr.eq_halt_of_shape {i : Instr} (h : i.shape = .halt) : i = .halt := by
  cases i <;> first | rfl | cases h

theorem Instr.shape_ne_cbPrefix {i : Instr} (h : i.WellFormed = true) : i.shape ≠ .cbPrefix := by
  have whole : i ≠ .prefixCb := by
    rintro rfl
    cases h
  intro e
  cases i <;> first | exact absurd rfl whole | cases e

/-! ### What may change beside the bus -/

/-- `t` differs from `s`, beside the count and what the bus holds, at most in the registers, the flags and
the control state that a row of the kind `sh` writes (R30, R33 to R38). -/
structure Shape.Changes (sh : Shape) (s t : State) : Prop where
  z : sh.flagsWritten.z = false → t.flags.z = s.flags.z
  n : sh.flagsWritten.n = false → t.flags.n = s.flags.n
  h : sh.flagsWritten.h = false → t.flags.h = s.flags.h
  c : sh.flagsWritten.c = false → t.flags.c = s.flags.c
  regs : ∀ r : Reg8, r ∉ sh.regsWritten → t.regs.get r = s.regs.get r
  sp : sh.writesSp = false → t.sp = s.sp
  pc : sh.writesPc = false → t.pc = s.pc
  control : sh ≠ .di → sh ≠ .ei → sh ≠ .reti → t.ime = s.ime ∧ t.eiDelay = s.eiDelay
  halted : sh ≠ .halt → t.halted = s.halted
  fixed : t.ppu = s.ppu ∧ t.fault = s.fault ∧ t.refused = s.refused ∧ t.cyclesTotal = s.cyclesTotal ∧
    t.stopRequested = s.stopRequested ∧ t.pc0 = s.pc0

namespace Shape.Changes

variable {sh : Shape} {s t u : State}

theorem trans (h1 : sh.Changes s t) (h2 : sh.Changes t u) : sh.Changes s u where
  z h := (h2.z h).trans (h1.z h)
  n h := (h2.n h).trans (h1.n h)
  h h := (h2.h h).trans (h1.h h)
  c h := (h2.c h).trans (h1.c h)
  regs r h := (h2.regs r h).trans (h1.regs r h)
  sp h := (h2.sp h).trans (h1.sp h)
  pc h := (h2.pc h).trans (h1.pc h)
  control a b c := ⟨(h2.control a b c).1.trans (h1.control a b c).1,
    (h2.control a b c).2.trans (h1.control a b c).2⟩
  halted h := (h2.halted h).trans (h1.halted h)
  fixed := by
    obtain ⟨p1, p2, p3, p4, p5, p6⟩ := h1.fixed
    obtain ⟨q1, q2, q3, q4, q5, q6⟩ := h2.fixed
    exact ⟨q1.trans p1, q2.trans p2, q3.trans p3, q4.trans p4, q5.trans p5, q6.trans p6⟩

/-- A write, whatever its hook does, changes what the bus holds alone. -/
theorem of_busOnly (hb : BusOnly s t) : sh.Changes s t := by
  obtain ⟨regs, flags, sp, pc, ime, ei, halted, fault, refused, cycles, stop, ppu, pc0, -⟩ := hb.fields
  constructor <;> simp [regs, flags, sp, pc, ime, ei, halted, fault, refused, cycles, stop, ppu, pc0]

theorem count (n : Nat) : sh.Changes s (s.count n) := by constructor <;> simp

theorem setReg {r : Reg8} (v : Byte) (hr : r ∈ sh.regsWritten) : sh.Changes s (s.setReg r v) := by
  constructor
  case regs => exact fun r' hr' => Regs.get_set_ne _ v fun e => hr' (e ▸ hr)
  all_goals simp

theorem setFlags {f : Flags} (hz : sh.flagsWritten.z = false → f.z = s.flags.z)
    (hn : sh.flagsWritten.n = false → f.n = s.flags.n) (hh : sh.flagsWritten.h = false → f.h = s.flags.h)
    (hc : sh.flagsWritten.c = false → f.c = s.flags.c) : sh.Changes s (s.setFlags f) := by
  constructor
  case z => exact hz
  case n => exact hn
  case h => exact hh
  case c => exact hc
  all_goals simp

/-- Where a row writes all flags, it does not matter which. -/
theorem setFlags_all (f : Flags) (h : sh.flagsWritten = ⟨true, true, true, true⟩) :
    sh.Changes s (s.setFlags f) := by
  apply setFlags <;> simp [h]

theorem setSp (v : Word) (h : sh.writesSp = true) : sh.Changes s (s.setSp v) := by
  constructor
  case sp => simp [h]
  all_goals simp

theorem setPc (v : Word) (h : sh.writesPc = true) : sh.Changes s (s.setPc v) := by
  constructor
  case pc => simp [h]
  all_goals simp

theorem setPair (p : Pair) (v : Word) (hr : ∀ r ∈ p.halves, r ∈ sh.regsWritten)
    (hsp : p.isSp = true → sh.writesSp = true) : sh.Changes s (s.setPair p v) := by
  cases p with
  | bc => exact (setReg (r := .b) (hi8 v) (hr _ (by decide))).trans (setReg (r := .c) (lo8 v) (hr _ (by decide)))
  | de => exact (setReg (r := .d) (hi8 v) (hr _ (by decide))).trans (setReg (r := .e) (lo8 v) (hr _ (by decide)))
  | hl => exact (setReg (r := .h) (hi8 v) (hr _ (by decide))).trans (setReg (r := .l) (lo8 v) (hr _ (by decide)))
  | sp => exact setSp v (hsp rfl)

end Shape.Changes

/-! ### The writes it made -/

namespace Machine

/-- `t` holds on the bus, and in the PPU, what `s` holds. -/
def SameBus (s t : State) : Prop :=
  t.mem = s.mem ∧ t.bootRom = s.bootRom ∧ t.io = s.io ∧ t.map = s.map ∧ t.bootMapped = s.bootMapped ∧
    t.ppu = s.ppu

theorem SameBus.refl (s : State) : SameBus s s := ⟨rfl, rfl, rfl, rfl, rfl, rfl⟩

theorem SameBus.setPair (s : State) (p : Pair) (v : Word) : SameBus s (s.setPair p v) := by
  simp [SameBus]

theorem SameBus.setStackPair (s : State) (p : StackPair) (v : Word) : SameBus s (s.setStackPair p v) := by
  simp [SameBus]

/-- From `s` to `t` with a completed write at each of the addresses in turn, and nothing else of the bus
changed before, between and after them. -/
def Writes : List Word → State → State → Prop
  | [], s, t => SameBus s t
  | a :: as, s, t => ∃ u v w, SameBus s u ∧ u.write8 a v = .ok w ∧ Writes as w t

theorem Writes.one {s u t : State} {a : Word} {v : Byte} (h : s.write8 a v = .ok u) (ht : SameBus u t) :
    Writes [a] s t := ⟨s, v, u, .refl s, h, ht⟩

/-- The two writes of a push. -/
theorem Writes.of_pushed {s w t : State} {v : Word} (h : s.Pushed v w) (ht : SameBus w t) :
    Writes [s.sp - 1, s.sp - 2] s t := by
  obtain ⟨u, h1, h2⟩ := h
  exact ⟨s.setSp (s.sp - 1), _, u, .refl s, h1, u.setSp (s.sp - 2), _, w, .refl u, h2, ht⟩

end Machine

/-! ### One case for each kind of row -/

/-- What a row of the kind `sh` did from `s` to `t`. -/
structure Shape.Did (sh : Shape) (s t : State) : Prop where
  changes : sh.Changes s t
  cycles : t.stepCycles = s.stepCycles + sh.cycles s
  writes : Writes (sh.stores s) s t

namespace Shape.Did

open Shape.Changes (count setReg setFlags setFlags_all setSp setPc setPair of_busOnly)

variable {s t : State}

/-- A row that makes no write and keeps the count until it completes. -/
theorem quiet {sh : Shape} {u : State} {n : Nat} (hc : sh.Changes s u) (hb : SameBus s u)
    (hu : u.stepCycles = s.stepCycles) (hn : sh.cycles s = n) (hs : sh.stores s = []) :
    sh.Did s (u.count n) where
  changes := hc.trans (count n)
  cycles := by rw [State.count_stepCycles, hu, hn]
  writes := by rw [hs]; exact hb

/-- A row that makes one write and then changes nothing of the bus. -/
theorem store {sh : Shape} {a : Word} {v : Byte} {u w : State} {n : Nat} (h : s.write8 a v = .ok u)
    (hc : sh.Changes u w) (hb : SameBus u w) (hw : w.stepCycles = u.stepCycles) (hn : sh.cycles s = n)
    (hs : sh.stores s = [a]) : sh.Did s (w.count n) where
  changes := ((of_busOnly (State.write8_busOnly h)).trans hc).trans (count n)
  cycles := by rw [State.count_stepCycles, hw, State.write8_stepCycles h, hn]
  writes := by rw [hs]; exact .one h hb

/-- A push, and PC after it. -/
theorem push {sh : Shape} {v : Word} {u w : State} {n : Nat} (h : s.Pushed v u) (hsp : sh.writesSp = true)
    (hc : sh.Changes u w) (hb : SameBus u w) (hw : w.stepCycles = u.stepCycles) (hn : sh.cycles s = n)
    (hs : sh.stores s = [s.sp - 1, s.sp - 2]) : sh.Did s (w.count n) where
  changes := (((setSp _ hsp).trans (of_busOnly h.busOnly)).trans hc).trans (count n)
  cycles := by
    obtain ⟨-, -, -, -, -, -, -, -, -, -, -, -, -, cycles⟩ := h.busOnly.fields
    rw [State.count_stepCycles, hw, cycles, State.setSp_stepCycles, hn]
  writes := by rw [hs]; exact .of_pushed h hb

/-- An operation that changes its operand and the flags. -/
theorem modified {sh : Shape} {o : Operand8} {w : Byte} {fl : Flags} {n : Nat} (h : Modified o s w fl n t)
    (hr : sh.regsWritten = o.regs) (hf : sh.Changes s (s.setFlags fl)) (hn : sh.cycles s = n)
    (hs : sh.stores s = o.stores s) : sh.Did s t := by
  cases o with
  | reg r =>
    obtain rfl : t = _ := h
    have hreg : r ∈ sh.regsWritten := by simp [hr, Operand8.regs]
    exact quiet (hf.trans (setReg w hreg)) (.refl s) rfl hn hs
  | atHL =>
    obtain ⟨u, hu, rfl⟩ := h
    refine ⟨(hf.trans (of_busOnly (State.write8_busOnly hu))).trans (count n), ?_, ?_⟩
    · rw [State.count_stepCycles, State.write8_stepCycles hu, State.setFlags_stepCycles, hn]
    · rw [hs]
      exact ⟨s.setFlags fl, w, u, .refl s, hu, .refl u⟩

/-- An accumulator operation; CP writes A back as it was. -/
theorem alu {sh : Shape} {op : AluOp} {v : Byte} {n : Nat} (h : aluA op v n s = .next t)
    (hr : sh.regsWritten = op.regs) (hf : sh.flagsWritten = ⟨true, true, true, true⟩)
    (hn : sh.cycles s = n) (hs : sh.stores s = []) : sh.Did s t := by
  obtain rfl := aluA_next h
  refine quiet (Changes.trans ?_ (setFlags_all _ hf)) (.refl s) rfl hn hs
  by_cases hcp : op = .cp
  · subst hcp
    have keepsA : s.setReg .a s.regs.a = s := rfl
    exact (congrArg (sh.Changes s) keepsA).mpr (of_busOnly (BusOnly.refl s))
  · refine setReg _ ?_
    rw [hr]
    cases op <;> first | exact absurd rfl hcp | decide

/-- A pop, and what it does with the popped word. -/
theorem pop {sh : Shape} {w : State} {n : Nat} (hsp : sh.writesSp = true)
    (hc : sh.Changes (s.setSp (s.sp + 2)) w) (hb : SameBus s w) (hw : w.stepCycles = s.stepCycles)
    (hn : sh.cycles s = n) (hs : sh.stores s = []) : sh.Did s (w.count n) :=
  quiet ((setSp _ hsp).trans hc) hb hw hn hs

end Shape.Did

/-- What a row that completed did (R30 to R38, R95 to R97, R491). The row PREFIX CB does what the CB row it
runs does. -/
theorem Shape.did_of_run {sh : Shape} {s t : State} (hcb : sh ≠ .cbPrefix) (h : sh.run s = .next t) :
    sh.Did s t := by
  cases sh with
  | move r r' =>
    obtain rfl := State.done_next h
    exact .quiet (.setReg _ (.head _)) (.refl s) rfl rfl rfl
  | imm r n =>
    obtain rfl := State.done_next h
    exact .quiet (.setReg _ (.head _)) (.refl s) rfl rfl rfl
  | load r p =>
    obtain ⟨v, -, rfl⟩ := loadFrom_next h
    exact .quiet (.setReg _ (.head _)) (.refl s) rfl rfl rfl
  | store p r =>
    obtain ⟨u, hu, rfl⟩ := storeTo_next h
    exact .store hu (.of_busOnly (.refl u)) (.refl u) rfl rfl rfl
  | storeImm n =>
    obtain ⟨u, hu, rfl⟩ := storeTo_next h
    exact .store hu (.of_busOnly (.refl u)) (.refl u) rfl rfl rfl
  | loadStep up =>
    obtain ⟨v, -, rfl⟩ := loadAStep_next h
    exact .quiet ((Changes.setReg v (.head _)).trans (.setPair .hl _ (fun _ hr => .tail _ hr) nofun)) (.refl s)
      rfl rfl rfl
  | storeStep up =>
    obtain ⟨u, hu, rfl⟩ := storeAStep_next h
    exact .store hu (.setPair .hl _ (fun _ hr => hr) nofun) (.refl u) rfl rfl rfl
  | pairImm p n =>
    obtain rfl := State.done_next h
    exact .quiet (.setPair p n (fun _ hr => hr) id) (.setPair s p n) (by simp) rfl rfl
  | storeSp a =>
    obtain ⟨u, w, hu, hw, rfl⟩ := storeSp_next h
    refine ⟨(Changes.trans (.of_busOnly (State.write8_busOnly hu))
      (.of_busOnly (State.write8_busOnly hw))).trans (.count 5), ?_, s, _, u, .refl s, hu, .one hw (.refl w)⟩
    rw [State.count_stepCycles, State.write8_stepCycles hw, State.write8_stepCycles hu]
    rfl
  | spFromHl =>
    obtain rfl := State.done_next h
    exact .quiet (.setSp _ rfl) (.refl s) rfl rfl rfl
  | push p =>
    obtain ⟨w, hw, rfl⟩ := pushPair_next h
    exact .push hw rfl (.of_busOnly (.refl w)) (.refl w) rfl rfl rfl
  | pop p =>
    obtain ⟨lo, hi, -, -, rfl⟩ := popPair_next h
    refine .pop rfl ?_ (SameBus.setStackPair (s.setSp _) p _) (by simp) rfl rfl
    cases p with
    | bc => exact .setPair .bc _ (fun _ hr => hr) nofun
    | de => exact .setPair .de _ (fun _ hr => hr) nofun
    | hl => exact .setPair .hl _ (fun _ hr => hr) nofun
    | af => exact (Changes.setReg (r := .a) _ (.head _)).trans (.setFlags_all _ rfl)
  | alu op o =>
    obtain ⟨v, -, h⟩ := aluOperand_next h
    exact .alu h rfl rfl rfl rfl
  | aluImm op n => exact .alu h rfl rfl rfl rfl
  | inc8 o =>
    obtain ⟨v, -, h⟩ := modify8_next h
    exact .modified h rfl (.setFlags nofun nofun nofun fun _ => rfl) rfl rfl
  | dec8 o =>
    obtain ⟨v, -, h⟩ := modify8_next h
    exact .modified h rfl (.setFlags nofun nofun nofun fun _ => rfl) rfl rfl
  | daa =>
    obtain rfl := State.done_next h
    exact .quiet ((Changes.setReg (r := .a) _ (.head _)).trans
      (.setFlags nofun (fun _ => rfl) nofun nofun)) (.refl s) rfl rfl rfl
  | cpl =>
    obtain rfl := State.done_next h
    exact .quiet ((Changes.setReg (r := .a) _ (.head _)).trans
      (.setFlags (fun _ => rfl) nofun nofun fun _ => rfl)) (.refl s) rfl rfl rfl
  | scf =>
    obtain rfl := State.done_next h
    exact .quiet (.setFlags (fun _ => rfl) nofun nofun nofun) (.refl s) rfl rfl rfl
  | ccf =>
    obtain rfl := State.done_next h
    exact .quiet (.setFlags (fun _ => rfl) nofun nofun nofun) (.refl s) rfl rfl rfl
  | addHl p =>
    obtain rfl := State.done_next h
    exact .quiet (Changes.trans (.setPair .hl _ (fun _ hr => hr) nofun)
      (.setFlags (fun _ => rfl) nofun nofun nofun)) (.refl s) rfl rfl rfl
  | inc16 p =>
    obtain rfl := State.done_next h
    exact .quiet (.setPair p _ (fun _ hr => hr) id) (.setPair s p _) (by simp) rfl rfl
  | dec16 p =>
    obtain rfl := State.done_next h
    exact .quiet (.setPair p _ (fun _ hr => hr) id) (.setPair s p _) (by simp) rfl rfl
  | addSp e =>
    obtain rfl := State.done_next h
    exact .quiet ((Changes.setSp _ rfl).trans (.setFlags_all _ rfl)) (.refl s) rfl rfl rfl
  | ldHlSp e =>
    obtain rfl := State.done_next h
    exact .quiet (Changes.trans (.setPair .hl _ (fun _ hr => hr) nofun) (.setFlags_all _ rfl)) (.refl s)
      rfl rfl rfl
  | rotA op =>
    obtain rfl := State.done_next h
    exact .quiet ((Changes.setReg (r := .a) _ (.head _)).trans (.setFlags_all _ rfl)) (.refl s) rfl rfl rfl
  | shift op o =>
    obtain ⟨v, -, h⟩ := cbShift_next h
    exact .modified h rfl (.setFlags_all _ rfl) rfl rfl
  | bit b o =>
    obtain ⟨v, -, rfl⟩ := cbBit_next h
    exact .quiet (.setFlags nofun nofun nofun fun _ => rfl) (.refl s) rfl rfl rfl
  | res b o =>
    obtain ⟨v, -, h⟩ := cbRes_next h
    exact .modified h rfl (.of_busOnly (.refl s)) rfl rfl
  | set b o =>
    obtain ⟨v, -, h⟩ := cbSet_next h
    exact .modified h rfl (.of_busOnly (.refl s)) rfl rfl
  | jp q a =>
    cases q with
    | none =>
      obtain rfl := State.done_next h
      exact .quiet (.setPc a rfl) (.refl s) rfl rfl rfl
    | some q =>
      obtain ⟨hq, rfl⟩ | ⟨hq, rfl⟩ := jumpIf_next h
      · exact .quiet (.setPc a rfl) (.refl s) rfl (if_pos ((condHolds_some q s).trans hq)) rfl
      · refine .quiet (.of_busOnly (.refl s)) (.refl s) rfl (if_neg ?_) rfl
        rw [condHolds_some, hq]
        decide
  | jpHl =>
    obtain rfl := State.done_next h
    exact .quiet (.setPc _ rfl) (.refl s) rfl rfl rfl
  | jr q e =>
    cases q with
    | none =>
      obtain rfl := State.done_next h
      exact .quiet (.setPc _ rfl) (.refl s) rfl rfl rfl
    | some q =>
      obtain ⟨hq, rfl⟩ | ⟨hq, rfl⟩ := jumpIf_next h
      · exact .quiet (.setPc _ rfl) (.refl s) rfl (if_pos ((condHolds_some q s).trans hq)) rfl
      · refine .quiet (.of_busOnly (.refl s)) (.refl s) rfl (if_neg ?_) rfl
        rw [condHolds_some, hq]
        decide
  | call q a =>
    cases q with
    | none =>
      obtain ⟨w, hw, rfl⟩ := callTo_next h
      exact .push hw rfl (.setPc a rfl) (.refl w) rfl rfl rfl
    | some q =>
      obtain ⟨hq, w, hw, rfl⟩ | ⟨hq, rfl⟩ := callIf_next h
      · have taken := (condHolds_some q s).trans hq
        exact .push hw rfl (.setPc a rfl) (.refl w) rfl (if_pos taken) (if_pos taken)
      · have not_taken : ¬ condHolds (some q) s = true := by
          rw [condHolds_some, hq]
          decide
        exact .quiet (.of_busOnly (.refl s)) (.refl s) rfl (if_neg not_taken) (if_neg not_taken)
  | ret q =>
    cases q with
    | none =>
      obtain ⟨lo, hi, -, -, rfl⟩ := returnFrom_next h
      exact .pop rfl (.setPc _ rfl) (.refl s) rfl rfl rfl
    | some q =>
      obtain ⟨hq, lo, hi, -, -, rfl⟩ | ⟨hq, rfl⟩ := returnIf_next h
      · exact .pop rfl (.setPc _ rfl) (.refl s) rfl (if_pos ((condHolds_some q s).trans hq)) rfl
      · refine .quiet (.of_busOnly (.refl s)) (.refl s) rfl (if_neg ?_) rfl
        rw [condHolds_some, hq]
        decide
  | reti =>
    obtain ⟨lo, hi, -, -, rfl⟩ := execReti_next h
    refine .pop rfl ?_ (.refl s) rfl rfl rfl
    constructor
    case pc => exact nofun
    case control => exact fun _ _ hne => absurd rfl hne
    all_goals simp
  | rst b =>
    obtain ⟨w, hw, rfl⟩ := callTo_next h
    exact .push hw rfl (.setPc _ rfl) (.refl w) rfl rfl rfl
  | nop =>
    obtain rfl := State.done_next h
    exact .quiet (.of_busOnly (.refl s)) (.refl s) rfl rfl rfl
  | halt =>
    obtain rfl := State.done_next h
    refine .quiet ?_ (.refl s) rfl rfl rfl
    constructor
    case halted => exact fun hne => absurd rfl hne
    all_goals simp
  | stop => cases h
  | di =>
    obtain rfl := State.done_next h
    refine .quiet ?_ (.refl s) rfl rfl rfl
    constructor
    case control => exact fun hne => absurd rfl hne
    all_goals simp
  | ei =>
    obtain rfl := State.done_next h
    refine .quiet ?_ ?_ ?_ rfl rfl
    · constructor
      case control => exact fun _ hne => absurd rfl hne
      all_goals split <;> simp
    · split <;> exact .refl s
    · split <;> rfl
  | cbPrefix => exact absurd rfl hcb
  | illegal op => cases h

/-- What a whole instruction that completed did. -/
theorem did_of_exec {i : Instr} {s t : State} (hi : i.WellFormed = true) (h : exec i s = .next t) :
    i.shape.Did s t := by
  rw [exec_eq_run] at h
  exact Shape.did_of_run (Instr.shape_ne_cbPrefix hi) h

end Sys2Proof
end

section
/-! What an instruction leaves alone, and its count: the flags, the registers and the bytes outside its row
(R30 to R38, R85, R95 to R97, R491). -/

namespace Sys2Proof

open Machine

/-! ### The flags, the registers and the count -/

/-- Settles O39: the flags of `Shape.Changes`. -/
theorem flagFrame : Obligations.FlagFrame := by
  unfold Obligations.FlagFrame
  intro i s t hi h
  have changes := (did_of_exec hi h).changes
  exact ⟨changes.z, changes.n, changes.h, changes.c⟩

/-- Settles O40: the rest of `Shape.Changes`, with DI, EI, RETI and HALT named by their kinds. -/
theorem registerFrame : Obligations.RegisterFrame := by
  unfold Obligations.RegisterFrame
  intro i s t hi h
  have changes := (did_of_exec hi h).changes
  exact ⟨changes.regs, changes.sp, changes.pc,
    fun di ei reti => changes.control (fun e => di (Instr.eq_di_of_shape e))
      (fun e => ei (Instr.eq_ei_of_shape e)) fun e => reti (Instr.eq_reti_of_shape e),
    fun halt => changes.halted fun e => halt (Instr.eq_halt_of_shape e), changes.fixed⟩

/-- Settles O42: the count of `Shape.Did`. -/
theorem cycleCounts : Obligations.CycleCounts := by
  unfold Obligations.CycleCounts
  exact fun i s t hi h => (did_of_exec hi h).cycles

/-! ### The bytes of the bus -/

namespace Machine

theorem SameBus.mapOk {s t : State} (h : SameBus s t) : t.mapOk = s.mapOk := by
  obtain ⟨-, -, -, map, boot, -⟩ := h
  exact State.mapOk_congr map boot

theorem SameBus.storageOk {s t : State} (h : SameBus s t) : t.storageOk = s.storageOk := by
  obtain ⟨mem, rom, -, -, -, ppu⟩ := h
  exact State.storageOk_congr mem rom ppu

theorem SameBus.read8 {s t : State} (h : SameBus s t) (a : Word) : t.read8 a = s.read8 a := by
  obtain ⟨mem, rom, io, map, -, -⟩ := h
  exact State.read8_congr map mem rom io a

/-- Writes keep the map as R81 and R100 say, and the storage in its canonical form. -/
theorem Writes.keeps {as : List Word} {s t : State} (h : Writes as s t) (hm : s.mapOk = true)
    (hs : s.storageOk = true) : t.mapOk = true ∧ t.storageOk = true := by
  induction as generalizing s with
  | nil => exact ⟨(SameBus.mapOk h).trans hm, (SameBus.storageOk h).trans hs⟩
  | cons a as ih =>
    obtain ⟨u, v, w, hu, hw, h⟩ := h
    obtain ⟨hm, hs⟩ := State.write8_keeps (hu.mapOk.trans hm) (hu.storageOk.trans hs) hw
    exact ih h hm hs

/-- What writes leave alone: the bytes at no address of theirs and in the reach of no hook they run, the
map where none is at 0xFF50, and the boot ROM's bytes. -/
theorem Writes.frame {as : List Word} {s t : State} (h : Writes as s t) (hm : s.mapOk = true)
    (hs : s.storageOk = true) :
    (∀ a, a ∉ as → (0xFF46 ∈ as → ¬ inRange 0xFE00 0xFE9F a) →
      (0xFF50 ∈ as → ¬ inRange 0x0000 0x00FF a) → t.read8 a = s.read8 a) ∧
    (0xFF50 ∉ as → t.map = s.map ∧ t.bootMapped = s.bootMapped) ∧ t.bootRom = s.bootRom := by
  induction as generalizing s with
  | nil =>
    have ⟨_, rom, _, map, boot, _⟩ := h
    exact ⟨fun a _ _ _ => SameBus.read8 h a, fun _ => ⟨map, boot⟩, rom⟩
  | cons b as ih =>
    obtain ⟨u, v, w, hu, hw, h⟩ := h
    have ⟨_, rom, _, map, boot, _⟩ := hu
    have hm := hu.mapOk.trans hm
    have hs := hu.storageOk.trans hs
    obtain ⟨reads, maps, roms, -⟩ := State.write8_frame hm hs hw
    obtain ⟨hm, hs⟩ := State.write8_keeps hm hs hw
    obtain ⟨reads', maps', roms'⟩ := ih h hm hs
    refine ⟨fun a ha dma hook => ?_, fun hb => ?_, roms'.trans (roms.trans rom)⟩
    · obtain ⟨hne, ha⟩ := not_or.1 (List.mem_cons.not.1 ha)
      rw [reads' a ha (fun h => dma (.tail _ h)) fun h => hook (.tail _ h),
        reads a hne (fun e => dma (e ▸ .head _)) fun e => hook (e ▸ .head _), hu.read8]
    · obtain ⟨hne, hb⟩ := not_or.1 (List.mem_cons.not.1 hb)
      obtain ⟨m1, b1⟩ := maps (Ne.symm hne)
      obtain ⟨m2, b2⟩ := maps' hb
      exact ⟨m2.trans (m1.trans map), b2.trans (b1.trans boot)⟩

end Machine

/-- Settles O41: what the writes of `Shape.Did` leave alone. -/
theorem memoryFrame : Obligations.MemoryFrame := by
  unfold Obligations.MemoryFrame
  exact fun i s t hi hm hs h => (did_of_exec hi h).writes.frame hm hs

end Sys2Proof
end

section
/-! Fetching, running and ending an instruction, and the dispatch of an interrupt (R13, R380, R381, R385). -/

namespace Sys2Proof.Machine

/-! ### Fetching, by the operand bytes of the opcode -/

theorem add_ofNat_zero (a : Word) : a + .ofNat 16 0 = a := BitVec.add_zero a

theorem add_one_one (a : Word) : a + 1 + 1 = a + 2 := by bv_omega

theorem add_two_one (a : Word) : a + 2 + 1 = a + 3 := by bv_omega

section

variable {s : State} {op : Byte} (h : s.read8 s.pc = some op) (k : Instr → State → Result)

include h

theorem State.fetchInstr_of_zero (hop : operandBytes op = 0) :
    s.fetchInstr k = k (assemble op 0 0) (s.setPc (s.pc + 1)) := by
  rw [State.fetchInstr, State.fetch8_some h]
  simp only [hop]

theorem State.fetchInstr_of_one (hop : operandBytes op = 1) :
    s.fetchInstr k = (s.setPc (s.pc + 1)).fetch8 fun b1 t => k (assemble op b1 0) t := by
  rw [State.fetchInstr, State.fetch8_some h]
  simp only [hop]

theorem State.fetchInstr_of_two (hop : operandBytes op = 2) :
    s.fetchInstr k = (s.setPc (s.pc + 1)).fetch8 fun b1 t => t.fetch8 fun b2 u => k (assemble op b1 b2) u := by
  rw [State.fetchInstr, State.fetch8_some h]
  simp only [hop]

end

/-- The next byte of an instruction, `n` bytes after its opcode. -/
theorem State.fetch8_at_some {s : State} {a : Word} {v : Byte} (h : s.read8 a = some v)
    (k : Byte → State → Result) : (s.setPc a).fetch8 k = k v (s.setPc (a + 1)) :=
  State.fetch8_some (s := s.setPc a) h k

theorem State.fetch8_at_none {s : State} {a : Word} (h : s.read8 a = none)
    (k : Byte → State → Result) : (s.setPc a).fetch8 k = (s.setPc a).stopsAt a .fetch :=
  State.fetch8_none (s := s.setPc a) h k

/-! ### A whole instruction -/

/-- The first `k` bytes at PC are those of the encoding. -/
def State.FetchesPrefix (s : State) (i : Instr) (k : Nat) : Prop :=
  ∀ j < k, s.read8 (s.pc + .ofNat 16 j) = (encode i)[j]?

theorem State.FetchesPrefix.opcode {s : State} {i : Instr} {k : Nat} {op : Byte} {rest : List Byte}
    (h : s.FetchesPrefix i k) (hk : 0 < k) (e : encode i = op :: rest) : s.read8 s.pc = some op := by
  have := h 0 hk
  rwa [add_ofNat_zero, e] at this

theorem State.FetchesPrefix.operand {s : State} {i : Instr} {k : Nat} {op b1 : Byte} {rest : List Byte}
    (h : s.FetchesPrefix i k) (hk : 1 < k) (e : encode i = op :: b1 :: rest) :
    s.read8 (s.pc + 1) = some b1 := by
  have := h 1 hk
  rwa [e] at this

theorem State.FetchesPrefix.operand_snd {s : State} {i : Instr} {k : Nat} {op b1 b2 : Byte} {rest : List Byte}
    (h : s.FetchesPrefix i k) (hk : 2 < k) (e : encode i = op :: b1 :: b2 :: rest) :
    s.read8 (s.pc + 2) = some b2 := by
  have := h 2 hk
  rwa [e] at this

theorem fetchedBytes_stop : Instr.stop.fetchedBytes = 1 := rfl

/-- A row other than STOP fetches its whole encoding (R130, R143). -/
theorem fetchedBytes_of_encode {i : Instr} {bs : List Byte} (e : encode i = bs) (hne : i ≠ .stop) :
    i.fetchedBytes = bs.length := by
  rw [Instr.fetchedBytes_eq hne, e]

/-- What STOP is fetched from: its opcode alone (R342). -/
theorem operandBytes_stop : operandBytes 0x10 = 0 := rfl

/-- The bytes of a whole instruction are fetched in order, and it goes on with PC past them. -/
theorem State.fetchInstr_of_prefix {s : State} {i : Instr} (hi : i.WellFormed = true)
    (h : s.FetchesPrefix i i.fetchedBytes) (k : Instr → State → Result) :
    s.fetchInstr k = k i (s.setPc (s.pc + .ofNat 16 i.fetchedBytes)) := by
  by_cases stop : i = .stop
  · subst stop
    exact State.fetchInstr_of_zero (h.opcode (by decide) rfl) k operandBytes_stop
  obtain rfl | ⟨op, e, hop, rfl⟩ | ⟨op, b, e, hop, rfl⟩ | ⟨op, b1, b2, e, hop, rfl⟩ := i.encode_shape hi
  · exact absurd rfl stop
  · have length := fetchedBytes_of_encode e stop
    rw [length] at h ⊢
    exact State.fetchInstr_of_zero (h.opcode (by simp) e) k hop
  · have length := fetchedBytes_of_encode e stop
    rw [length] at h ⊢
    rw [State.fetchInstr_of_one (h.opcode (by simp) e) k hop,
      State.fetch8_at_some (h.operand (by simp) e), add_one_one]
    rfl
  · have length := fetchedBytes_of_encode e stop
    rw [length] at h ⊢
    rw [State.fetchInstr_of_two (h.opcode (by simp) e) k hop,
      State.fetch8_at_some (h.operand (by simp) e), add_one_one,
      State.fetch8_at_some (h.operand_snd (by simp) e), add_two_one]
    rfl

/-- The fetch stops at the first byte of a whole instruction that is not mapped, with PC at it. -/
theorem State.fetchInstr_of_unmapped {s : State} {i : Instr} {n : Nat} (hi : i.WellFormed = true)
    (hn : n < i.fetchedBytes) (h : s.FetchesPrefix i n) (hnone : s.read8 (s.pc + .ofNat 16 n) = none)
    (k : Instr → State → Result) :
    s.fetchInstr k = (s.setPc (s.pc + .ofNat 16 n)).stopsAt (s.pc + .ofNat 16 n) .fetch := by
  obtain rfl | hpos := Nat.eq_zero_or_pos n
  · rw [add_ofNat_zero] at hnone ⊢
    exact State.fetch8_at_none hnone _
  have stop : i ≠ .stop := by
    rintro rfl
    rw [fetchedBytes_stop] at hn
    omega
  obtain rfl | ⟨op, e, hop, rfl⟩ | ⟨op, b, e, hop, rfl⟩ | ⟨op, b1, b2, e, hop, rfl⟩ := i.encode_shape hi
  · exact absurd rfl stop
  · rw [fetchedBytes_of_encode e stop] at hn
    exact absurd hn (Nat.not_lt_of_le hpos)
  · rw [fetchedBytes_of_encode e stop, List.length_cons, List.length_singleton] at hn
    obtain rfl : n = 1 := by omega
    rw [State.fetchInstr_of_one (h.opcode (by simp) e) k hop]
    exact State.fetch8_at_none hnone _
  · rw [fetchedBytes_of_encode e stop] at hn
    simp only [List.length_cons, List.length_nil] at hn
    obtain rfl | rfl : n = 1 ∨ n = 2 := by omega
    · rw [State.fetchInstr_of_two (h.opcode (by simp) e) k hop]
      exact State.fetch8_at_none hnone _
    · rw [State.fetchInstr_of_two (h.opcode (by simp) e) k hop,
        State.fetch8_at_some (h.operand (by simp) e), add_one_one]
      exact State.fetch8_at_none hnone _

/-- Settles O5: the fetch of a whole instruction, and the branch of the CPU step that fetches at PC. -/
theorem stepRunsDecodedInstruction : Obligations.StepRunsDecodedInstruction := by
  unfold Obligations.StepRunsDecodedInstruction
  refine ⟨fun s i hi h => State.fetchInstr_of_prefix hi h _, fun s hf hr idle dispatch => ?_⟩
  exact congrArg payTicks (State.cpuStep_runs hf hr idle dispatch)

/-- Settles O6: the fetch stops at the first byte that is not mapped. -/
theorem unmappedFetchStops : Obligations.UnmappedFetchStops := by
  unfold Obligations.UnmappedFetchStops
  exact fun s i k hi hk h hnone => State.fetchInstr_of_unmapped hi hk h hnone _

/-! ### The end of a step -/

/-- Settles O10: `State.endStep_fields` at each value of the delay. -/
theorem endOfStepCountsEi : Obligations.EndOfStepCountsEi := by
  unfold Obligations.EndOfStepCountsEi
  intro t
  have ends : endResult (.next t) = .next t.endStep := rfl
  rw [ends, State.endStep_fields]
  refine ⟨fun h => ?_, fun h => ?_, fun n h => ?_⟩
  · have unarmed : t.eiDelay - 1 = t.eiDelay := by omega
    have kept : decide (t.eiDelay = 1) = false := decide_eq_false (by omega)
    rw [unarmed, kept, Bool.false_or]
  · rw [h]
    rfl
  · have kept : decide (t.eiDelay = 1) = false := decide_eq_false (by omega)
    rw [kept, Bool.false_or, h]
    rfl

/-! ### Dispatch -/

/-- The state in which a dispatch pushes: awake, IME and the source's bit of IF cleared (R381). -/
def State.dispatching (s : State) : State :=
  { s.beginStep with
    ime := false, io := { s.io with iflag := s.io.iflag &&& ~~~ bit8 (firstSource s.pend).bit } }

/-- Where IF is the scalar at 0xFF0F, a dispatch is a push of PC in `dispatching`, and the handler. -/
theorem State.cpuStep_eq_push {s : State} (hf : s.fault = none) (hr : s.refused = none)
    (hi : s.ime = true) (hp : s.pend ≠ 0)
    (hif : s.map.lookup 0xFF0F = some (Machine.io 0xFF0F .iflag)) :
    s.cpuStep = s.dispatching.push16 s.pc fun u => State.runInstr
      { u with pc := (firstSource s.pend).vector, stepCycles := u.stepCycles + Config.dispatchCycles } := by
  rw [State.cpuStep_dispatches hf hr ⟨hi, hp⟩]
  exact State.withStore_plain (s := { s.beginStep with ime := false }) (a := 0xFF0F) (m := Machine.io 0xFF0F .iflag) _
    hif (by decide) _

/-- Settles O7: the push of a dispatch, in each of the ways a push can go; the count at its end is 5, since
a write leaves the count. -/
theorem stepDispatchesInterrupt : Obligations.StepDispatchesInterrupt := by
  unfold Obligations.StepDispatchesInterrupt
  intro s hf hr hi hp hif i s1
  rw [State.cpuStep_eq_push hf hr hi hp hif]
  have start : s.dispatching = s1 := rfl
  have pc : s1.pc = s.pc := rfl
  rw [start]
  refine ⟨fun m m' h h' plain plain' => ?_, fun t u h h' => ?_, fun h => State.push16_none_fst _ h,
    fun m h plain h' => State.push16_none_snd _ h plain h', fun f h => State.push16_error_fst _ h,
    fun t f h h' => State.push16_error_snd _ h h'⟩
  · rw [State.push16_plain (s := s1) _ h h' plain plain']
    simp only [State.setSp, State.stored_stepCycles]
    rfl
  · rw [State.push16_ok (s := s1) _ h h', State.write8_stepCycles h']
    dsimp only
    rw [State.write8_stepCycles h]
    rfl

end Sys2Proof.Machine
end

section
/-! The ways a step stops (R89, R342, R346, R360 to R364), and what its count comes to. -/

namespace Sys2Proof.Machine

/-! ### What a fault of an access is -/

/-- `f` is a fatal error over a state that has the PPU and the cycle total of `s`; where the map and the
storage of `s` are well-formed, it is an unmapped access (R89, R360, R362). -/
def State.Stop (s : State) (f : Fault) : Prop :=
  ∃ (e : FatalError) (u : State), f = u.fatal e ∧ u.ppu = s.ppu ∧ u.cyclesTotal = s.cyclesTotal ∧
    (s.mapOk = true → s.storageOk = true → ∃ a access, e = .unmapped a access s.pc0)

/-- `u` is a state of the step that is at `s`. -/
structure State.Reaches (s u : State) : Prop where
  ppu : u.ppu = s.ppu
  total : u.cyclesTotal = s.cyclesTotal
  pc0 : u.pc0 = s.pc0
  keeps : s.mapOk = true → s.storageOk = true → u.mapOk = true ∧ u.storageOk = true

theorem State.Reaches.refl (s : State) : s.Reaches s := ⟨rfl, rfl, rfl, fun hm hs => ⟨hm, hs⟩⟩

theorem State.Reaches.trans {s t u : State} (h1 : s.Reaches t) (h2 : t.Reaches u) : s.Reaches u where
  ppu := h2.ppu.trans h1.ppu
  total := h2.total.trans h1.total
  pc0 := h2.pc0.trans h1.pc0
  keeps hm hs := h2.keeps (h1.keeps hm hs).1 (h1.keeps hm hs).2

theorem State.Reaches.stop {s u : State} {f : Fault} (h : s.Reaches u) (hf : u.Stop f) : s.Stop f := by
  obtain ⟨e, t, rfl, ppu, total, unmapped⟩ := hf
  refine ⟨e, t, rfl, ppu.trans h.ppu, total.trans h.total, fun hm hs => ?_⟩
  rw [← h.pc0]
  exact unmapped (h.keeps hm hs).1 (h.keeps hm hs).2

theorem State.Reaches.of_write8 {s t : State} {a : Word} {v : Byte} (h : s.write8 a v = .ok t) :
    s.Reaches t := by
  obtain ⟨-, -, -, -, -, -, -, -, -, total, -, ppu, pc0, -⟩ := (State.write8_busOnly h).fields
  exact ⟨ppu, total, pc0, fun hm hs => State.write8_keeps hm hs h⟩

theorem State.Reaches.setSp (s : State) (v : Word) : s.Reaches (s.setSp v) :=
  ⟨rfl, rfl, rfl, fun hm hs => ⟨hm, hs⟩⟩

/-! ### A write that stops -/

/-- A fault over some state that names an access of the step at `s`. -/
def State.UnmappedFault (s : State) (f : Fault) : Prop :=
  ∃ (a : Word) (access : Access) (u : State), f = u.fatal (.unmapped a access s.pc0)

theorem State.dmaCopy_error {src : Word} {n i : Nat} {s : State} {f : Fault}
    (h : State.dmaCopy src n i s = .error f) : s.UnmappedFault f := by
  induction n generalizing i s with
  | zero => cases h
  | succ n ih =>
    unfold State.dmaCopy at h
    split at h
    · injection h with h
      exact ⟨_, _, s, h.symm⟩
    · next v _ =>
      split at h
      · next f' hf =>
        injection h with h
        subst h
        unfold State.store8 at hf
        split at hf
        · injection hf with hf
          exact ⟨_, _, s, hf.symm⟩
        · cases hf
      · next t ht =>
        obtain ⟨m, -, rfl⟩ := State.store8_ok ht
        obtain ⟨-, -, -, -, -, -, -, -, -, -, -, -, pc0, -⟩ := (s.stored_busOnly m _ v).fields
        obtain ⟨a, access, u, e⟩ := ih h
        exact ⟨a, access, u, by rw [e, pc0]⟩

/-- BootHook cannot fail where the map is well-formed. -/
theorem State.bootHook_ne_error {s : State} (hm : s.mapOk = true) (v : Byte) (f : Fault) :
    s.bootHook v ≠ .error f := by
  by_cases keeps : v = 0 ∨ s.bootMapped = false
  · rw [State.bootHook_keeps keeps]
    exact nofun
  · rw [not_or, Bool.not_eq_false] at keeps
    rw [State.bootHook_acts hm keeps.1 keeps.2]
    exact nofun

theorem State.write8_error {s : State} {a : Word} {v : Byte} {f : Fault} (hm : s.mapOk = true)
    (h : s.write8 a v = .error f) : s.UnmappedFault f := by
  unfold State.write8 at h
  split at h
  · injection h with h
    exact ⟨a, .write, s, h.symm⟩
  · next m _ =>
    split at h
    · cases h
    · obtain ⟨-, h⟩ | ⟨-, h⟩ | ⟨-, h⟩ := State.writeHook_cases h
      · have hm' : (s.writeStore m.store a.toNat v).mapOk = true :=
          (State.mapOk_congr (by simp) (by simp)).trans hm
        exact absurd h (State.bootHook_ne_error hm' v f)
      · have stop := State.dmaCopy_error h
        rwa [State.UnmappedFault, State.writeStore_pc0] at stop
      · cases h

theorem State.stop_of_write8 {s : State} {a : Word} {v : Byte} {f : Fault} (h : s.write8 a v = .error f) :
    s.Stop f := by
  have result := s.write8_busResult a v
  rw [h] at result
  obtain ⟨e, u, rfl, busOnly⟩ := result
  obtain ⟨-, -, -, -, -, -, -, -, -, total, -, ppu, -, -⟩ := busOnly.fields
  refine ⟨e, u, rfl, ppu, total, fun hm _ => ?_⟩
  obtain ⟨b, access, u', e'⟩ := State.write8_error hm h
  injection e' with e'
  exact ⟨b, access, e'⟩

/-! ### Each access goes on or stops -/

theorem State.stop_unmapped (s : State) (a : Word) (access : Access) :
    s.Stop (s.fatal (.unmapped a access s.pc0)) := ⟨_, s, rfl, rfl, rfl, fun _ _ => ⟨a, access, rfl⟩⟩

theorem State.withByte_cases (s : State) (a : Word) (k : Byte → Result) :
    (∃ v, s.withByte a k = k v) ∨ ∃ f, s.Stop f ∧ s.withByte a k = .fault f := by
  cases h : s.read8 a with
  | some v => exact .inl ⟨v, State.withByte_some h k⟩
  | none => exact .inr ⟨_, s.stop_unmapped a .read, State.withByte_none h k⟩

theorem State.withStore_cases (s : State) (a : Word) (v : Byte) (k : State → Result) :
    (∃ t, s.write8 a v = .ok t ∧ s.withStore a v k = k t) ∨
      ∃ f, s.Stop f ∧ s.withStore a v k = .fault f := by
  cases h : s.write8 a v with
  | ok t => exact .inl ⟨t, rfl, State.withStore_ok h k⟩
  | error f => exact .inr ⟨f, State.stop_of_write8 h, State.withStore_error h k⟩

theorem State.Pushed.reaches {s w : State} {v : Word} (h : s.Pushed v w) : s.Reaches w := by
  obtain ⟨u, h1, h2⟩ := h
  exact ((State.Reaches.setSp s _).trans (.of_write8 h1)).trans ((State.Reaches.setSp u _).trans (.of_write8 h2))

theorem State.push16_cases (s : State) (v : Word) (k : State → Result) :
    (∃ w, s.Pushed v w ∧ s.push16 v k = k w) ∨ ∃ f, s.Stop f ∧ s.push16 v k = .fault f := by
  have r0 := State.Reaches.setSp s (s.sp - 1)
  cases h1 : (s.setSp (s.sp - 1)).write8 (s.sp - 1) (hi8 v) with
  | error f => exact .inr ⟨f, r0.stop (State.stop_of_write8 h1), State.push16_error_fst k h1⟩
  | ok u =>
    have r2 := (r0.trans (.of_write8 h1)).trans (.setSp u (s.sp - 2))
    cases h2 : (u.setSp (s.sp - 2)).write8 (s.sp - 2) (lo8 v) with
    | error f => exact .inr ⟨f, r2.stop (State.stop_of_write8 h2), State.push16_error_snd k h1 h2⟩
    | ok w => exact .inl ⟨w, ⟨u, h1, h2⟩, State.push16_ok k h1 h2⟩

theorem State.pop16_cases (s : State) (k : Word → State → Result) :
    (∃ v, s.pop16 k = k v (s.setSp (s.sp + 2))) ∨ ∃ f, s.Stop f ∧ s.pop16 k = .fault f := by
  unfold State.pop16
  obtain ⟨lo, e⟩ | ⟨f, hf, e⟩ := s.withByte_cases s.sp _
  · rw [e]
    obtain ⟨hi, e⟩ | ⟨f, hf, e⟩ := (s.setSp (s.sp + 1)).withByte_cases (s.setSp (s.sp + 1)).sp
      fun hi => k (cat16 hi lo) ((s.setSp (s.sp + 1)).setSp ((s.setSp (s.sp + 1)).sp + 1))
    · refine .inl ⟨cat16 hi lo, e.trans ?_⟩
      rw [State.setSp_sp, add_one_one]
      rfl
    · exact .inr ⟨f, (State.Reaches.setSp s _).stop hf, e⟩
  · exact .inr ⟨f, hf, e⟩

/-! ### Each row completes or stops at an access -/

/-- A result that is a next state, or the stop of an access of the step at `s`. -/
def State.Proper (s : State) : Result → Prop
  | .next _ => True
  | .fault f => s.Stop f
  | .refused _ => False

theorem State.Reaches.proper {s u : State} (h : s.Reaches u) {r : Result} (hr : u.Proper r) :
    s.Proper r := by
  cases r with
  | next t => exact True.intro
  | fault f => exact h.stop hr
  | refused r => exact hr

theorem State.withByte_proper {s : State} {a : Word} {k : Byte → Result} (h : ∀ v, s.Proper (k v)) :
    s.Proper (s.withByte a k) := by
  obtain ⟨v, e⟩ | ⟨f, hf, e⟩ := s.withByte_cases a k
  · rw [e]
    exact h v
  · rw [e]
    exact hf

theorem State.withStore_proper {s : State} {a : Word} {v : Byte} {k : State → Result}
    (h : ∀ t : State, t.Proper (k t)) : s.Proper (s.withStore a v k) := by
  obtain ⟨t, ht, e⟩ | ⟨f, hf, e⟩ := s.withStore_cases a v k
  · rw [e]
    exact (State.Reaches.of_write8 ht).proper (h t)
  · rw [e]
    exact hf

theorem State.push16_proper {s : State} {v : Word} {k : State → Result}
    (h : ∀ t : State, t.Proper (k t)) :
    s.Proper (s.push16 v k) := by
  obtain ⟨w, hw, e⟩ | ⟨f, hf, e⟩ := s.push16_cases v k
  · rw [e]
    exact hw.reaches.proper (h w)
  · rw [e]
    exact hf

theorem State.pop16_proper {s : State} {k : Word → State → Result}
    (h : ∀ v, s.Proper (k v (s.setSp (s.sp + 2)))) : s.Proper (s.pop16 k) := by
  obtain ⟨v, e⟩ | ⟨f, hf, e⟩ := s.pop16_cases k
  · rw [e]
    exact h v
  · rw [e]
    exact hf

theorem State.done_proper (s t : State) (n : Nat) : s.Proper (t.done n) := True.intro

/-- The flags set before the access are no part of what a stop says. -/
theorem State.setFlags_withStore_proper (s : State) (fl : Flags) (a : Word) (v : Byte) (n : Nat) :
    s.Proper ((s.setFlags fl).withStore a v fun t => t.done n) := by
  have r : s.Reaches (s.setFlags fl) := ⟨rfl, rfl, rfl, fun hm hs => ⟨hm, hs⟩⟩
  exact r.proper (State.withStore_proper fun t => t.done_proper t n)

theorem modify8_proper (f : Byte → Flags → Byte × Flags) (o : Operand8) (s : State) :
    s.Proper (modify8 f o s) := by
  cases o with
  | reg r => exact s.done_proper _ 1
  | atHL => exact State.withByte_proper fun v => s.setFlags_withStore_proper _ _ _ 3

theorem cbModify_proper (f : Byte → Byte) (g : Byte → Flags) (o : Operand8) (s : State) :
    s.Proper (cbModify f g o s) := by
  cases o with
  | reg r => exact s.done_proper _ 2
  | atHL => exact State.withByte_proper fun v => s.setFlags_withStore_proper _ _ _ 4

theorem callTo_proper (a : Word) (n : Nat) (s : State) : s.Proper (callTo a n s) :=
  State.push16_proper fun t => t.done_proper _ n

theorem returnFrom_proper (n : Nat) (s : State) : s.Proper (returnFrom n s) :=
  State.pop16_proper fun _ => s.done_proper _ n

theorem popPair_proper (p : StackPair) (s : State) : s.Proper (popPair p s) :=
  State.pop16_proper fun _ => s.done_proper _ 3

theorem execReti_proper (s : State) : s.Proper (execReti s) := by
  unfold execReti State.returnFromInterrupt
  exact State.pop16_proper fun _ => s.done_proper _ 4

theorem jumpIf_proper (q : Cond) (a : Word) (taken base : Nat) (s : State) :
    s.Proper (jumpIf q a taken base s) := by
  rw [jumpIf_eq]
  exact True.intro

theorem callIf_proper (q : Cond) (a : Word) (s : State) : s.Proper (callIf q a s) := by
  unfold callIf
  split
  · exact callTo_proper a 6 s
  · exact s.done_proper s 3

theorem returnIf_proper (q : Cond) (s : State) : s.Proper (returnIf q s) := by
  unfold returnIf
  split
  · exact returnFrom_proper 5 s
  · exact s.done_proper s 2

theorem cbShift_proper (op : ShiftOp) (o : Operand8) (s : State) : s.Proper (cbShift op o s) := by
  unfold cbShift
  exact cbModify_proper _ _ o s

theorem cbRes_proper (b : Nat) (o : Operand8) (s : State) : s.Proper (cbRes b o s) := by
  unfold cbRes
  exact cbModify_proper _ _ o s

theorem cbSet_proper (b : Nat) (o : Operand8) (s : State) : s.Proper (cbSet b o s) := by
  unfold cbSet
  exact cbModify_proper _ _ o s

end Sys2Proof.Machine

namespace Sys2Proof

open Machine

/-- No row but STOP, the illegal bytes and the prefix can do anything else. -/
theorem Shape.run_proper {sh : Shape} (hcb : sh ≠ .cbPrefix) (hstop : sh ≠ .stop)
    (hill : ∀ op, sh ≠ .illegal op) (s : State) : s.Proper (sh.run s) := by
  cases sh with
  | load r p => exact State.withByte_proper fun v => s.done_proper _ _
  | store p r => exact State.withStore_proper fun t => t.done_proper t _
  | storeImm n => exact State.withStore_proper fun t => t.done_proper t 3
  | loadStep up => exact State.withByte_proper fun v => s.done_proper _ 2
  | storeStep up => exact State.withStore_proper fun t => t.done_proper _ 2
  | storeSp a => exact State.withStore_proper fun t => State.withStore_proper fun u => u.done_proper u 5
  | push p => exact State.push16_proper fun t => t.done_proper t 4
  | pop p => exact popPair_proper p s
  | alu op o =>
    cases o with
    | reg r => exact s.done_proper _ 1
    | atHL => exact State.withByte_proper fun v => s.done_proper _ 2
  | inc8 o => exact modify8_proper _ o s
  | dec8 o => exact modify8_proper _ o s
  | shift op o => exact cbShift_proper op o s
  | bit b o =>
    cases o with
    | reg r => exact s.done_proper _ 2
    | atHL => exact State.withByte_proper fun v => s.done_proper _ 3
  | res b o => exact cbRes_proper _ o s
  | set b o => exact cbSet_proper _ o s
  | jp q a =>
    cases q with
    | none => exact s.done_proper _ 4
    | some q => exact jumpIf_proper q a 4 3 s
  | jr q e =>
    cases q with
    | none => exact s.done_proper _ 3
    | some q => exact jumpIf_proper q _ 3 2 s
  | call q a =>
    cases q with
    | none => exact callTo_proper a 6 s
    | some q => exact callIf_proper q a s
  | ret q =>
    cases q with
    | none => exact returnFrom_proper 4 s
    | some q => exact returnIf_proper q s
  | reti => exact execReti_proper s
  | rst t => exact callTo_proper _ 4 s
  | stop => exact absurd rfl hstop
  | cbPrefix => exact absurd rfl hcb
  | illegal op => exact absurd rfl (hill op)
  | _ => exact True.intro

end Sys2Proof
end

section
/-! Steps: how they begin, how they stop, what they cost, and when IME changes (R36, R360 to R364, R380 to
R386, R470). -/

namespace Sys2Proof

open Machine

/-! ### The opcode an instruction was assembled from -/

theorem Instr.eq_stop_of_shape {i : Instr} (h : i.shape = .stop) : i = .stop := by
  cases i <;> first | rfl | cases h

theorem Instr.mem_illegalRows_of_shape {i : Instr} {op : Byte} (h : i.shape = .illegal op) :
    (i, op) ∈ illegalRows := by
  cases i <;> first | cases h; decide | cases h

/-- The encoding of what was assembled begins with the opcode, STOP's too. -/
theorem head?_encode_assemble (op b1 b2 : Byte) : (encode (assemble op b1 b2)).head? = some op := by
  by_cases stop : op = 0x10
  · subst stop
    rfl
  · rw [encode_assemble b1 b2 stop]
    split <;> rfl

/-- An instruction with one encoding is assembled from the opcode there alone. -/
theorem opcode_of_assemble {op b1 b2 : Byte} {i : Instr} (h : assemble op b1 b2 = i) :
    (encode i).head? = some op := by
  rw [← h]
  exact head?_encode_assemble op b1 b2

/-- The 11 bytes with no row in the table (R142). -/
def illegalBytes : List Byte := [0xD3, 0xDB, 0xDD, 0xE3, 0xE4, 0xEB, 0xEC, 0xED, 0xF4, 0xFC, 0xFD]

theorem illegalBytes_spec : (∀ row ∈ illegalRows, row.2 ∈ illegalBytes) ∧
    ∀ op ∈ illegalBytes, operandBytes op = 0 := by decide

theorem opcode_of_illegal {op b1 b2 op' : Byte} (h : (assemble op b1 b2).shape = .illegal op') :
    op' = op ∧ op ∈ illegalBytes ∧ operandBytes op = 0 := by
  have row := Instr.mem_illegalRows_of_shape h
  have head := head?_encode_assemble op b1 b2
  rw [(encode_and_shape_of_mem_illegalRows _ row).1] at head
  obtain rfl : op' = op := Option.some.inj head
  have listed := illegalBytes_spec.1 _ row
  exact ⟨rfl, listed, illegalBytes_spec.2 _ listed⟩

theorem opcode_of_stop {op b1 b2 : Byte} (h : (assemble op b1 b2).shape = .stop) : op = 0x10 :=
  (Option.some.inj (opcode_of_assemble (Instr.eq_stop_of_shape h))).symm

namespace Machine

/-! ### How an instruction stops -/

/-- `r` is a stop of the instruction at PC in `s` by one of the rules: at an access, at an illegal opcode, or
STOP's refusal (R346, R342, R362, R364). -/
def State.StopsByRule (s : State) (r : Result) : Prop :=
  (∃ f, r = .fault f ∧ s.Stop f) ∨
  (∃ op ∈ illegalBytes, s.read8 s.pc = some op ∧
    r = .fault ((s.setPc (s.pc + 1)).fatal (.illegalOpcode op s.pc))) ∨
  (s.read8 s.pc = some 0x10 ∧ r = .refused (.stop { s.setPc (s.pc + 1) with refused := some .stop }))

theorem State.exec_completes_or_stops {s : State} {op : Byte} (h : s.read8 s.pc = some op) (b1 b2 : Byte) :
    let r := exec (assemble op b1 b2) (s.setPc (s.pc + .ofNat 16 (operandBytes op + 1)))
    (∃ u, r = .next u) ∨ s.StopsByRule r := by
  intro r
  have run : r = _ := exec_eq_run _ _
  have hcb := Instr.shape_ne_cbPrefix (assemble_wellFormed op b1 b2)
  by_cases hill : ∃ op', (assemble op b1 b2).shape = .illegal op'
  · obtain ⟨op', kind⟩ := hill
    obtain ⟨rfl, listed, none⟩ := opcode_of_illegal kind
    refine .inr (.inr (.inl ⟨op', listed, h, ?_⟩))
    rw [run, kind, none]
    have back : s.pc + .ofNat 16 (0 + 1) - 1 = s.pc := BitVec.add_sub_cancel _ _
    exact congrArg (fun a => Host.Outcome.fault ((s.setPc (s.pc + 1)).fatal (.illegalOpcode op' a))) back
  by_cases hstop : (assemble op b1 b2).shape = .stop
  · obtain rfl := opcode_of_stop hstop
    refine .inr (.inr (.inr ⟨h, ?_⟩))
    rw [run, hstop, operandBytes_stop]
    rfl
  have proper := Shape.run_proper hcb hstop (fun op' kind => hill ⟨op', kind⟩)
    (s.setPc (s.pc + .ofNat 16 (operandBytes op + 1)))
  rw [← run] at proper
  generalize r = r at proper
  cases r with
  | next u => exact .inl ⟨u, rfl⟩
  | fault f => exact .inr (.inl ⟨f, rfl, State.Reaches.stop ⟨rfl, rfl, rfl, fun hm hs => ⟨hm, hs⟩⟩ proper⟩)
  | refused r => exact absurd proper id

theorem State.runInstr_completes_or_stops (s : State) :
    (∃ u, s.runInstr = .next u) ∨ s.StopsByRule s.runInstr := by
  unfold State.runInstr
  obtain ⟨op, b1, b2, h, -, -, e⟩ | ⟨n, -, -, e⟩ := s.fetchInstr_cases fun i t => endResult (exec i t)
  · rw [e]
    obtain ⟨u, e⟩ | stops := State.exec_completes_or_stops h (if operandBytes op = 0 then 0 else b1)
      (if operandBytes op = 2 then b2 else 0)
    · exact .inl ⟨u.endStep, by rw [e]; rfl⟩
    · refine .inr ?_
      obtain ⟨f, e, stop⟩ | ⟨op', listed, h', e⟩ | ⟨h', e⟩ := stops
      · exact .inl ⟨f, by rw [e]; rfl, stop⟩
      · exact .inr (.inl ⟨op', listed, h', by rw [e]; rfl⟩)
      · exact .inr (.inr ⟨h', by rw [e]; rfl⟩)
  · rw [e]
    refine .inr (.inl ⟨_, rfl, ?_⟩)
    exact State.Reaches.stop (u := s.setPc (s.pc + .ofNat 16 n)) ⟨rfl, rfl, rfl, fun hm hs => ⟨hm, hs⟩⟩
      (State.stop_unmapped _ _ .fetch)

/-! ### How a step begins -/

/-- `w` is where a step from `s` fetches its instruction: the state at its start, or in the handler of an
interrupt, with the writes of the dispatch done and 5 M-cycles counted (R380, R381). -/
structure State.Begins (s w : State) : Prop where
  reaches : s.beginStep.Reaches w
  regs : w.regs = s.regs
  flags : w.flags = s.flags
  fault : w.fault = s.fault
  refused : w.refused = s.refused
  eiDelay : w.eiDelay = s.eiDelay
  entry : w = s.beginStep ∨ (s.ime = true ∧ s.pend ≠ 0 ∧ w.stepCycles = 5 ∧
    ∃ as u, Writes as s u ∧ SameBus u w)

theorem State.dispatch_cases {s : State} (hi : s.ime = true) (hp : s.pend ≠ 0) (k : State → Result) :
    (∃ w, s.Begins w ∧ s.beginStep.dispatch s.pend k = k w) ∨
      ∃ f, s.beginStep.Stop f ∧ s.beginStep.dispatch s.pend k = .fault f := by
  have r0 : s.beginStep.Reaches { s.beginStep with ime := false } :=
    ⟨rfl, rfl, rfl, fun hm hs => ⟨hm, hs⟩⟩
  unfold State.dispatch
  obtain ⟨t, ht, e⟩ | ⟨f, hf, e⟩ := State.withStore_cases { s.beginStep with ime := false } 0xFF0F
    (s.beginStep.io.iflag &&& ~~~ bit8 (firstSource s.pend).bit)
    fun t => t.push16 t.pc fun u =>
      k { u with pc := (firstSource s.pend).vector, stepCycles := u.stepCycles + Config.dispatchCycles }
  · obtain ⟨u, hu, e'⟩ | ⟨f, hf, e'⟩ := t.push16_cases t.pc fun u =>
      k { u with pc := (firstSource s.pend).vector, stepCycles := u.stepCycles + Config.dispatchCycles }
    · refine .inl ⟨_, ?_, e.trans e'⟩
      obtain ⟨regs, flags, -, -, -, ei, -, fault, refused, -, -, -, -, count⟩ := (State.write8_busOnly ht).fields
      obtain ⟨regs', flags', -, -, -, ei', -, fault', refused', -, -, -, -, count'⟩ := hu.busOnly.fields
      have r := (r0.trans (.of_write8 ht)).trans hu.reaches
      exact
        { reaches := r.trans ⟨rfl, rfl, rfl, fun hm hs => ⟨hm, hs⟩⟩
          regs := regs'.trans regs
          flags := flags'.trans flags
          fault := fault'.trans fault
          refused := refused'.trans refused
          eiDelay := ei'.trans ei
          entry := .inr ⟨hi, hp, congrArg (· + 5) (count'.trans count), [0xFF0F, t.sp - 1, t.sp - 2], u,
            ⟨{ s.beginStep with ime := false }, _, t, .refl s, ht, .of_pushed hu (.refl u)⟩, .refl u⟩ }
    · exact .inr ⟨f, (r0.trans (.of_write8 ht)).stop hf, e.trans e'⟩
  · exact .inr ⟨f, r0.stop hf, e⟩

/-- A step of a CPU that can step idles, stops in a dispatch, or runs an instruction. -/
theorem State.cpuStep_begins {s : State} (hf : s.fault = none) (hr : s.refused = none) :
    (s.halted = true ∧ s.pend = 0 ∧ s.cpuStep = .next s.idle) ∨
      (∃ f, s.beginStep.Stop f ∧ s.cpuStep = .fault f) ∨ ∃ w, s.Begins w ∧ s.cpuStep = w.runInstr := by
  obtain ⟨e, h, -⟩ | ⟨-, h, -⟩ | ⟨-, -, cases⟩ := s.cpuStep_cases
  · rw [hf] at h
    cases h
  · rw [hr] at h
    cases h
  · obtain idle | ⟨-, hi, hp, e⟩ | ⟨-, -, e⟩ := cases
    · exact .inl idle
    · rw [e]
      obtain ⟨w, hw, e⟩ | stop := State.dispatch_cases hi hp State.runInstr
      · exact .inr (.inr ⟨w, hw, e⟩)
      · exact .inr (.inl stop)
    · exact .inr (.inr ⟨s.beginStep, ⟨.refl _, rfl, rfl, rfl, rfl, rfl, .inl rfl⟩, e⟩)

/-- A step of a CPU that can step completes, or stops at an access, at an illegal opcode or at STOP. -/
theorem State.cpuStep_completes_or_stops {s : State} (hf : s.fault = none) (hr : s.refused = none) :
    (∃ u, s.cpuStep = .next u) ∨ (∃ f, s.beginStep.Stop f ∧ s.cpuStep = .fault f) ∨
      ∃ w, s.Begins w ∧
        ((∃ op ∈ illegalBytes, w.read8 w.pc = some op ∧
          s.cpuStep = .fault ((w.setPc (w.pc + 1)).fatal (.illegalOpcode op w.pc))) ∨
        (w.read8 w.pc = some 0x10 ∧
          s.cpuStep = .refused (.stop { w.setPc (w.pc + 1) with refused := some .stop }))) := by
  obtain ⟨-, -, c⟩ | stop | ⟨w, begins, c⟩ := State.cpuStep_begins hf hr
  · exact .inl ⟨_, c⟩
  · exact .inr (.inl stop)
  · rw [c]
    obtain ⟨u, r⟩ | ⟨f, r, stop⟩ | illegal | stop := w.runInstr_completes_or_stops
    · exact .inl ⟨u, r⟩
    · exact .inr (.inl ⟨f, begins.reaches.stop stop, r⟩)
    · exact .inr (.inr ⟨w, begins, .inl illegal⟩)
    · exact .inr (.inr ⟨w, begins, .inr stop⟩)

/-! ### The marks -/

theorem step_of_fault {t : State} {e : FatalError} (h : t.fault = some e) : step t = .fault (.fatal e t) := by
  refine step_fault.2 ?_
  unfold State.cpuStep
  rw [h]

theorem step_of_refused {t : State} (hf : t.fault = none) (h : t.refused = some .stop) :
    step t = .refused (.stop t) := by
  refine step_refused.2 ?_
  unfold State.cpuStep
  rw [hf, h]

/-- A fault carries its mark, and a stop request its own and no fault's (R39). -/
def Marked : Result → Prop
  | .fault (.fatal e t) => t.fault = some e
  | .refused (.stop t) => t.fault = none ∧ t.refused = some .stop
  | _ => True

theorem State.Stop.marked {s : State} {f : Fault} (h : s.Stop f) : Marked (.fault f) := by
  obtain ⟨e, u, rfl, -⟩ := h
  exact rfl

theorem State.cpuStep_marked (s : State) : Marked s.cpuStep := by
  obtain ⟨e, marked, c⟩ | ⟨hf, hr, c⟩ | ⟨hf, hr, -⟩ := s.cpuStep_cases
  · rw [c]
    exact marked
  · rw [c]
    exact ⟨hf, hr⟩
  obtain ⟨u, c⟩ | ⟨f, stop, c⟩ | ⟨w, begins, ⟨op, -, -, c⟩ | ⟨-, c⟩⟩ := State.cpuStep_completes_or_stops hf hr
  · rw [c]
    exact True.intro
  · rw [c]
    exact stop.marked
  · rw [c]
    exact rfl
  · rw [c]
    exact ⟨begins.fault.trans hf, rfl⟩

/-- Settles O12: the mark of the stop, which the next step answers. -/
theorem faultAndRefusalAreTerminal : Obligations.FaultAndRefusalAreTerminal := by
  unfold Obligations.FaultAndRefusalAreTerminal
  refine ⟨fun s t e h => ?_, fun s t h => ?_⟩
  · have marked := s.cpuStep_marked
    rw [step_fault.1 h] at marked
    exact ⟨marked, step_of_fault marked⟩
  · have marked := s.cpuStep_marked
    rw [step_refused.1 h] at marked
    exact ⟨marked.2, step_of_refused marked.1 marked.2⟩

/-! ### The stops of a state that meets the invariant -/

/-- What `cpuOk` says, part by part. -/
theorem State.cpuOk_iff {s : State} :
    s.cpuOk = true ↔ s.fault = none ∧ s.refused = none ∧ s.eiDelay ≤ 1 ∧ (s.eiDelay = 0 ∨ s.ime = false) := by
  simp [State.cpuOk, and_assoc]

/-- What a stop of the step at `s` leaves and names, from a state that meets the invariant. -/
def State.StopAllowed (s : State) : Result → Prop
  | .next _ => True
  | .fault (.fatal e t) => t.ppu = s.ppu ∧ t.cyclesTotal = s.cyclesTotal ∧
      ((∃ a access, e = .unmapped a access s.pc) ∨
        ∃ op a, e = .illegalOpcode op a ∧ t.read8 a = some op ∧ t.pc = a + 1 ∧ op ∈ illegalBytes)
  | .refused (.stop t) => t.ppu = s.ppu ∧ t.cyclesTotal = s.cyclesTotal ∧ t.regs = s.regs ∧
      t.flags = s.flags ∧ t.read8 (t.pc - 1) = some 0x10
  | .refused _ => False

theorem State.cpuStep_stopAllowed {s : State} (inv : s.Inv) : s.StopAllowed s.cpuStep := by
  obtain ⟨hs, hm, hcpu, -⟩ := inv
  obtain ⟨hf, hr, -⟩ := State.cpuOk_iff.1 hcpu
  obtain ⟨u, c⟩ | ⟨f, ⟨e, u, rfl, ppu, total, unmapped⟩, c⟩ | ⟨w, begins, ⟨op, listed, byte, c⟩ | ⟨byte, c⟩⟩ :=
    State.cpuStep_completes_or_stops hf hr
  · rw [c]
    exact True.intro
  · rw [c]
    exact ⟨ppu, total, .inl (unmapped hm hs)⟩
  · rw [c]
    exact ⟨begins.reaches.ppu, begins.reaches.total, .inr ⟨op, w.pc, rfl, byte, rfl, listed⟩⟩
  · rw [c]
    have back : w.pc + 1 - 1 = w.pc := BitVec.add_sub_cancel _ _
    exact ⟨begins.reaches.ppu, begins.reaches.total, begins.regs, begins.flags,
      (congrArg w.read8 back).trans byte⟩

/-- Settles O13: the stop of an access names an unmapped address, since the map is well-formed; the other
stops leave PC past the byte they are about. -/
theorem stepStopsOnlyByRule : Obligations.StepStopsOnlyByRule := by
  unfold Obligations.StepStopsOnlyByRule
  intro s inv
  have allowed := State.cpuStep_stopAllowed inv
  refine ⟨fun e t h => ?_, fun r h => ?_⟩
  · rw [step_fault.1 h] at allowed
    exact allowed
  · rw [step_refused.1 h] at allowed
    cases r with
    | stop t => exact ⟨t, rfl, allowed⟩
    | notModelled t => exact absurd allowed id

/-! ### A step that completes -/

/-- A step that completes idled, or ran an instruction to its end, with the ticks paid after it. -/
theorem step_next_cases {s t : State} (h : step s = .next t) :
    (s.halted = true ∧ s.pend = 0 ∧ t = s.idle.ticks 4) ∨
      ∃ w op b1 b2 u, s.Begins w ∧ w.read8 w.pc = some op ∧
        exec (assemble op b1 b2) (w.setPc (w.pc + .ofNat 16 (operandBytes op + 1))) = .next u ∧
        t = u.endStep.ticks (4 * u.stepCycles) := by
  obtain ⟨u, hu, rfl⟩ := step_next h
  obtain ⟨e, -, c⟩ | ⟨-, -, c⟩ | ⟨hf, hr, -⟩ := s.cpuStep_cases
  · rw [c] at hu
    cases hu
  · rw [c] at hu
    cases hu
  obtain ⟨halted, quiet, c⟩ | ⟨f, -, c⟩ | ⟨w, begins, c⟩ := State.cpuStep_begins hf hr
  · rw [c] at hu
    cases hu
    exact .inl ⟨halted, quiet, rfl⟩
  · rw [c] at hu
    cases hu
  · rw [c] at hu
    obtain ⟨op, b1, b2, u, byte, -, run, rfl⟩ := State.runInstr_next hu
    refine .inr ⟨w, op, b1, b2, u, begins, byte, run, ?_⟩
    rw [State.endStep_fields]

/-- The end of a step and its ticks leave the count, and pay it into the total. -/
theorem endStep_ticks_fields (u : State) (n : Nat) :
    (u.endStep.ticks n).cyclesTotal = u.cyclesTotal + u.stepCycles ∧
      (u.endStep.ticks n).stepCycles = u.stepCycles ∧
      (u.endStep.ticks n).ime = (decide (u.eiDelay = 1) || u.ime) ∧
      (u.endStep.ticks n).eiDelay = u.eiDelay - 1 := by
  obtain ⟨-, -, -, -, ime, ei, -, -, -, total, -, -, -, -, -, -, count⟩ := (u.endStep.ticks_only n).fields
  rw [total, count, ime, ei, State.endStep_fields]
  exact ⟨rfl, rfl, rfl, rfl⟩

/-- A row that can complete takes from 1 to 6 M-cycles (R491). -/
theorem cycles_bounds {sh : Shape} (hcb : sh ≠ .cbPrefix) (hill : ∀ op, sh ≠ .illegal op) (s : State) :
    1 ≤ sh.cycles s ∧ sh.cycles s ≤ 6 := by
  have operand (o : Operand8) (reg mem : Nat) : o.cost reg mem = reg ∨ o.cost reg mem = mem := by
    cases o
    exacts [.inl rfl, .inr rfl]
  have address (p : Addr) : 2 ≤ p.cost ∧ p.cost ≤ 4 := by
    cases p <;> simp [Addr.cost]
  cases sh with
  | load r p | store p r => exact ⟨by grind [Shape.cycles.eq_def], by grind [Shape.cycles.eq_def]⟩
  | alu op o => obtain h | h := operand o 1 2 <;> simp [Shape.cycles.eq_def, h]
  | inc8 o | dec8 o => obtain h | h := operand o 1 3 <;> simp [Shape.cycles.eq_def, h]
  | bit b o => obtain h | h := operand o 2 3 <;> simp [Shape.cycles.eq_def, h]
  | shift op o | res b o | set b o => obtain h | h := operand o 2 4 <;> simp [Shape.cycles.eq_def, h]
  | jp q a | jr q a | call q a => simp only [Shape.cycles.eq_def]; split <;> decide
  | ret q =>
    simp only [Shape.cycles.eq_def]
    split
    · decide
    · split <;> decide
  | cbPrefix => exact absurd rfl hcb
  | illegal op => exact absurd rfl (hill op)
  | _ => simp [Shape.cycles.eq_def]

/-- An instruction that completes is not one of the illegal opcodes. -/
theorem shape_ne_illegal_of_exec {i : Instr} {s t : State} (h : exec i s = .next t) (op : Byte) :
    i.shape ≠ .illegal op := by
  intro kind
  rw [exec_eq_run, kind] at h
  cases h

/-- Settles O11: the count is 0 or the dispatch's 5 at the instruction, and the row adds its own. -/
theorem stepPaysFourTicksPerCycle : Obligations.StepPaysFourTicksPerCycle := by
  unfold Obligations.StepPaysFourTicksPerCycle
  refine fun s => ⟨fun t h => congrArg payTicks h, fun f h => congrArg payTicks h,
    fun r h => congrArg payTicks h, fun t h => ?_⟩
  obtain ⟨-, -, rfl⟩ | ⟨w, op, b1, b2, u, begins, -, run, rfl⟩ := step_next_cases h
  · obtain ⟨-, -, -, -, -, -, -, -, -, total, -, -, -, -, -, -, count⟩ := (s.idle.ticks_only 4).fields
    rw [total, count]
    exact ⟨rfl, Nat.le_refl 1, Nat.le_of_ble_eq_true rfl⟩
  · have wf := assemble_wellFormed op b1 b2
    obtain ⟨changes, count, -⟩ := did_of_exec wf run
    obtain ⟨low, high⟩ := cycles_bounds (Instr.shape_ne_cbPrefix wf) (shape_ne_illegal_of_exec run)
      (w.setPc (w.pc + .ofNat 16 (operandBytes op + 1)))
    obtain ⟨-, -, -, total, -, -⟩ := changes.fixed
    obtain ⟨paid, kept, -, -⟩ := endStep_ticks_fields u (4 * u.stepCycles)
    have before : w.stepCycles = 0 ∨ w.stepCycles = 5 := by
      obtain rfl | ⟨-, -, count, -⟩ := begins.entry
      exacts [.inl rfl, .inr count]
    rw [State.setPc_stepCycles] at count
    rw [paid, kept, total, State.setPc_cyclesTotal, begins.reaches.total]
    exact ⟨rfl, by omega, by omega⟩

/-! ### IME and EI's delay -/

/-- What an instruction that completes does to IME and to EI's delay (R36, R320, R343, R344). -/
theorem control_of_exec {i : Instr} {s t : State} (hi : i.WellFormed = true) (h : exec i s = .next t) :
    (t.ime = s.ime ∧ t.eiDelay = s.eiDelay) ∨ (i = .di ∧ t.ime = false ∧ t.eiDelay = 0) ∨
      (i = .ei ∧ s.ime = false ∧ t.ime = false ∧ t.eiDelay = 2) ∨
      (i = .reti ∧ t.ime = true ∧ t.eiDelay = 0) := by
  by_cases di : i.shape = .di
  · obtain rfl := Instr.eq_di_of_shape di
    cases h
    exact .inr (.inl ⟨rfl, rfl, rfl⟩)
  by_cases ei : i.shape = .ei
  · obtain rfl := Instr.eq_ei_of_shape ei
    change execEi s = .next t at h
    by_cases arms : s.ime = false ∧ s.eiDelay = 0
    · rw [execEi_arms arms.1 arms.2] at h
      cases h
      exact .inr (.inr (.inl ⟨rfl, arms.1, arms.1, rfl⟩))
    · rw [execEi_keeps (by simpa [Classical.or_iff_not_imp_left] using arms)] at h
      cases h
      exact .inl ⟨rfl, rfl⟩
  by_cases reti : i.shape = .reti
  · obtain rfl := Instr.eq_reti_of_shape reti
    obtain ⟨lo, hi, -, -, rfl⟩ := execReti_next h
    exact .inr (.inr (.inr ⟨rfl, rfl, rfl⟩))
  · exact .inl ((did_of_exec hi h).changes.control di ei reti)

/-- Settles O14: the end of a step sets IME where the count reaches 0, and DI, EI and RETI are the
instructions that touch it. -/
theorem imeChangesOnlyByRule : Obligations.ImeChangesOnlyByRule := by
  unfold Obligations.ImeChangesOnlyByRule
  intro s t h
  obtain ⟨-, -, rfl⟩ | ⟨w, op, b1, b2, u, begins, byte, run, rfl⟩ := step_next_cases h
  · obtain ⟨-, -, -, -, ime, -⟩ := (s.idle.ticks_only 4).fields
    rw [ime]
    exact ⟨fun h h' => absurd (h.symm.trans h') nofun, fun h h' => absurd (h.symm.trans h') nofun⟩
  · obtain ⟨-, -, ime, -⟩ := endStep_ticks_fields u (4 * u.stepCycles)
    have control := control_of_exec (assemble_wellFormed op b1 b2) run
    rw [ime]
    obtain rfl | ⟨on, pending, -⟩ := begins.entry
    · refine ⟨fun off sets => ?_, fun on clears => .inr ?_⟩
      · obtain ⟨keeps, delay⟩ | ⟨-, off', delay⟩ | ⟨-, -, off', delay⟩ | ⟨reti, -⟩ := control
        · refine .inl ?_
          rw [delay, keeps] at sets
          simpa [State.beginStep, off] using sets
        · simp [off', delay] at sets
        · simp [off', delay] at sets
        · exact .inr (byte.trans (opcode_of_assemble reti).symm)
      · obtain ⟨keeps, -⟩ | ⟨di, -⟩ | ⟨-, off, -⟩ | ⟨-, on', -⟩ := control
        · simp [keeps, State.beginStep, on] at clears
        · exact byte.trans (opcode_of_assemble di).symm
        · exact absurd (on.symm.trans off) nofun
        · simp [on'] at clears
    · exact ⟨fun off => absurd (on.symm.trans off) nofun, fun _ _ => .inl pending⟩

end Machine

end Sys2Proof
end

section
/-! The pace of PixelTransfer in closed form, and the bounds it keeps (R59, R60, R423, R427, R429). -/

namespace Sys2Proof.Machine

/-- The pace `r` ticks after a push that left 15 pixels waiting, for `r` below 8. -/
def Pace.inTile (fetchIdx : Byte) (x r : Nat) : Pace where
  phase := decide (r % 2 = 1)
  fstate := if r < 2 then .tileNumber else if r < 4 then .tileDataLow else if r < 6 then .tileDataHigh
    else .pushToFifo
  fetchIdx := fetchIdx
  fifoLen := 15 - r
  x := x + r

theorem Pace.inTile_tick (f : Byte) (x : Nat) {r : Nat} (h : r < 7) :
    (Pace.inTile f x r).tick = .inTile f x (r + 1) := by
  interval_cases r <;> rfl

/-- The eighth tick pushes the next tile (R427). -/
theorem Pace.inTile_push (f : Byte) (x : Nat) : (Pace.inTile f x 7).tick = .inTile (f + 1) (x + 8) 0 := rfl

/-- The pace from the tick of the first pixel on, in closed form. -/
theorem Pace.after_add_sixteen (m : Nat) :
    Pace.after (16 + m) = .inTile (.ofNat 8 (2 + m / 8)) (8 * (m / 8) + 1) (m % 8) := by
  induction m with
  | zero => rfl
  | succ m ih =>
    have tick : Pace.after (16 + (m + 1)) = (Pace.after (16 + m)).tick := rfl
    rw [tick, ih]
    by_cases last : m % 8 = 7
    · obtain ⟨next, first⟩ : (m + 1) / 8 = m / 8 + 1 ∧ (m + 1) % 8 = 0 := by omega
      have x : 8 * (m / 8) + 1 + 8 = 8 * (m / 8 + 1) + 1 := by omega
      rw [last, Pace.inTile_push, next, first, x, ← Nat.add_assoc, BitVec.ofNat_add (2 + m / 8) 1]
      rfl
    · obtain ⟨same, next⟩ : (m + 1) / 8 = m / 8 ∧ (m + 1) % 8 = m % 8 + 1 := by omega
      rw [Pace.inTile_tick _ _ (by omega), same, next]

theorem Pace.after_lt_sixteen {n : Nat} (h : n < 16) : (Pace.after n).fifoLen ≤ 8 ∧ (Pace.after n).x = 0 ∧
    (Pace.after n).fetchIdx.toNat ≤ 1 := by
  revert n
  decide

/-- The bounds of R59 and R60 all through PixelTransfer, which ends after 175 ticks (R429). -/
theorem Pace.after_bounds {n : Nat} (h : n ≤ 175) : (Pace.after n).fifoLen ≤ 16 ∧ (Pace.after n).x ≤ 160 ∧
    ((Pace.after n).x = 160 ↔ n = 175) ∧ (Pace.after n).fetchIdx.toNat ≤ 21 := by
  by_cases early : n < 16
  · obtain ⟨len, x, idx⟩ := Pace.after_lt_sixteen early
    omega
  · obtain ⟨m, rfl⟩ := Nat.exists_eq_add_of_le (Nat.le_of_not_lt early)
    rw [Pace.after_add_sixteen]
    simp only [Pace.inTile, BitVec.toNat_ofNat]
    omega

end Sys2Proof.Machine
end

section
/-! The invariant: what a tick keeps of the PPU and of the storage, and what a write keeps of LY. -/

namespace Sys2Proof.Machine

/-! ### LY -/

theorem State.lookup_ly {s : State} (hm : s.mapOk = true) :
    s.map.lookup (0xFF44 : Word).toNat = some ⟨0xFF44, 1, true, .scalar .ly⟩ :=
  State.lookup_fixed hm (by decide) (by decide)

theorem State.read8_ly {s : State} (hm : s.mapOk = true) : s.read8 0xFF44 = some s.io.ly :=
  State.read8_eq_some (State.lookup_ly hm)

/-- LY is read-only, and no write elsewhere reaches it (R48). -/
theorem State.write8_ly {s t : State} {a : Word} {v : Byte} (hm : s.mapOk = true) (hs : s.storageOk = true)
    (h : s.write8 a v = .ok t) : t.io.ly = s.io.ly := by
  by_cases ly : a = 0xFF44
  · subst ly
    obtain ⟨m, lookup, ⟨-, rfl⟩ | ⟨writable, -⟩⟩ := State.write8_ok_cases h
    · rfl
    · obtain rfl := Option.some.inj ((State.lookup_ly hm).symm.trans lookup)
      cases writable
  · have kept := (State.write8_frame hm hs h).1 0xFF44 (Ne.symm ly) (fun _ => by simp [inRange])
      (fun _ => by simp [inRange])
    rw [State.read8_ly (State.write8_keeps hm hs h).1, State.read8_ly hm] at kept
    exact Option.some.inj kept

/-! ### What an instruction keeps for the tick -/

/-- The part of the invariant that every tick needs: the map, the storage, and the PPU between two ticks. -/
structure State.TickOk (s : State) : Prop where
  map : s.mapOk = true
  storage : s.storageOk = true
  engine : s.engineOk = true

theorem State.engineOk_congr {s t : State} (ppu : t.ppu = s.ppu) (ly : t.io.ly = s.io.ly) :
    t.engineOk = s.engineOk := by
  simp only [State.engineOk, State.lineOk, State.offOk, ppu, ly]

theorem SameBus.tickOk {s t : State} (h : SameBus s t) (ok : s.TickOk) : t.TickOk where
  map := h.mapOk.trans ok.map
  storage := h.storageOk.trans ok.storage
  engine := by
    obtain ⟨-, -, io, -, -, ppu⟩ := h
    exact (State.engineOk_congr ppu (congrArg IoRegs.ly io)).trans ok.engine

theorem State.tickOk_of_write8 {s t : State} {a : Word} {v : Byte} (h : s.write8 a v = .ok t)
    (ok : s.TickOk) : t.TickOk := by
  obtain ⟨hm, hs⟩ := State.write8_keeps ok.map ok.storage h
  obtain ⟨-, -, -, -, -, -, -, -, -, -, -, ppu, -⟩ := (State.write8_busOnly h).fields
  exact ⟨hm, hs, (State.engineOk_congr ppu (State.write8_ly ok.map ok.storage h)).trans ok.engine⟩

theorem Writes.tickOk {as : List Word} {s t : State} (h : Writes as s t) (ok : s.TickOk) : t.TickOk := by
  induction as generalizing s with
  | nil => exact SameBus.tickOk h ok
  | cons a as ih =>
    obtain ⟨u, v, w, hu, hw, h⟩ := h
    exact ih h (State.tickOk_of_write8 hw (hu.tickOk ok))

theorem State.Begins.tickOk {s w : State} (h : s.Begins w) (ok : s.TickOk) : w.TickOk := by
  obtain rfl | ⟨-, -, -, as, u, writes, same⟩ := h.entry
  · exact SameBus.tickOk (s := s) ⟨rfl, rfl, rfl, rfl, rfl, rfl⟩ ok
  · exact same.tickOk (writes.tickOk ok)

/-! ### What a tick writes of the PPU -/

theorem State.engineOk_iff {s : State} : s.engineOk = true ↔
    s.ppu.fifo.length ≤ 16 ∧ s.ppu.x ≤ 160 ∧ (if s.ppu.lcdOn then s.lineOk else s.offOk) = true := by
  simp [State.engineOk, and_assoc]

/-- The PPU between two ticks with the LCD on. -/
theorem State.engineOk_iff_of_on {s : State} (on : s.ppu.lcdOn = true) : s.engineOk = true ↔
    s.ppu.fifo.length ≤ 16 ∧ s.ppu.x ≤ 160 ∧ s.lineOk = true := by
  rw [State.engineOk_iff, if_pos on]

theorem State.lineOk_oamSearch {s : State} (h : s.ppu.mode = .oamSearch) :
    s.lineOk = true ↔ s.io.ly.toNat < 144 ∧ s.ppu.lineTick < 80 := by
  simp [State.lineOk, h]

theorem State.lineOk_pixelTransfer {s : State} (h : s.ppu.mode = .pixelTransfer) :
    s.lineOk = true ↔ s.io.ly.toNat < 144 ∧ 80 ≤ s.ppu.lineTick ∧ s.ppu.lineTick < 255 ∧
      s.ppu.pace = Pace.after (s.ppu.lineTick - 80) := by
  simp [State.lineOk, h, and_assoc]

theorem State.lineOk_hblank {s : State} (h : s.ppu.mode = .hblank) :
    s.lineOk = true ↔ s.io.ly.toNat < 144 ∧ 255 ≤ s.ppu.lineTick ∧ s.ppu.lineTick < 456 := by
  simp [State.lineOk, h, and_assoc]

theorem State.lineOk_vblank {s : State} (h : s.ppu.mode = .vblank) :
    s.lineOk = true ↔ 144 ≤ s.io.ly.toNat ∧ s.io.ly.toNat ≤ 153 ∧ s.ppu.lineTick < 456 := by
  simp [State.lineOk, h, and_assoc]

/-- No pixel leaves the FIFO, or the front one does and 8 stay (R423). -/
theorem State.fetchTick_fifo_cases (s : State) : s.fetchTick.ppu.fifo.length ≤ 8 ∨
    ∃ i rest, s.fetchTick.ppu.fifo = i :: rest ∧ 8 ≤ rest.length := by
  cases fifo : s.fetchTick.ppu.fifo with
  | nil => exact .inl (Nat.zero_le 8)
  | cons i rest =>
    rw [List.length_cons]
    obtain few | many := Nat.lt_or_ge rest.length 8
    · exact .inl few
    · exact .inr ⟨i, rest, rfl, many⟩

/-- What a tick of PixelTransfer leaves alone, and the mode it is in: HBlank from column 160 on (R429). -/
theorem State.pixelTransferTick_keeps {s : State} (hx : s.ppu.x ≠ 160) (mode : s.ppu.mode = .pixelTransfer) :
    s.pixelTransferTick.ppu.lineTick = s.ppu.lineTick ∧ s.pixelTransferTick.ppu.lcdOn = s.ppu.lcdOn ∧
      s.pixelTransferTick.io = s.io ∧ s.pixelTransferTick.ppu.back = s.ppu.back ∧
      s.pixelTransferTick.ppu.frameReady = s.ppu.frameReady ∧
      (s.ppu.front.wf = true → s.pixelTransferTick.ppu.front.wf = true) ∧
      s.pixelTransferTick.ppu.mode = if s.pixelTransferTick.ppu.x = 160 then .hblank else .pixelTransfer := by
  have only := s.fetchTick_fetcherOnly
  obtain few | ⟨i, rest, fifo, many⟩ := s.fetchTick_fifo_cases
  · rw [State.pixelTransferTick_waits few, only]
    exact ⟨rfl, rfl, rfl, rfl, rfl, id, mode.trans (if_neg hx).symm⟩
  · rw [State.pixelTransferTick_outputs fifo many, only]
    refine ⟨rfl, rfl, rfl, rfl, rfl, fun wf => Frame.wf_write wf _ _ _, ?_⟩
    dsimp only
    rw [mode]
    rfl

/-! ### The tick in each mode -/

/-- What the mode's part of a tick keeps, with the LCD on and the tick counted. -/
structure State.ModeTicked (s t : State) : Prop where
  on : t.ppu.lcdOn = true
  len : t.ppu.fifo.length ≤ 16
  x : t.ppu.x ≤ 160
  line : t.lineOk = true
  front : s.ppu.front.wf = true → t.ppu.front.wf = true
  back : s.ppu.front.wf = true → s.ppu.back.wf = true → t.ppu.back.wf = true

theorem State.modeTicked_oamSearch {s : State} (on : s.ppu.lcdOn = true) (ok : s.engineOk = true)
    (mode : s.ppu.mode = .oamSearch) : s.ModeTicked s.countTick.modeTick := by
  obtain ⟨len, x, line⟩ := (State.engineOk_iff_of_on on).1 ok
  obtain ⟨ly, tick⟩ := (State.lineOk_oamSearch mode).1 line
  rw [State.modeTick_oamSearch (s := s.countTick) mode, State.oamSearchTick]
  split
  · next last =>
    refine ⟨on, Nat.zero_le _, Nat.zero_le _, ?_, id, fun _ => id⟩
    refine (State.lineOk_pixelTransfer rfl).2 ⟨ly, ?_⟩
    have last : s.ppu.lineTick + 1 = 80 := last
    dsimp only [State.countTick]
    rw [last]
    exact ⟨by decide, by decide, rfl⟩
  · next before =>
    have before : ¬ s.ppu.lineTick + 1 = 80 := before
    refine ⟨on, len, x, ?_, id, fun _ => id⟩
    exact (State.lineOk_oamSearch (by exact mode)).2 ⟨ly, show s.ppu.lineTick + 1 < 80 by omega⟩

theorem State.modeTicked_pixelTransfer {s : State} (on : s.ppu.lcdOn = true) (ok : s.engineOk = true)
    (mode : s.ppu.mode = .pixelTransfer) : s.ModeTicked s.countTick.modeTick := by
  obtain ⟨-, -, line⟩ := (State.engineOk_iff_of_on on).1 ok
  obtain ⟨ly, low, high, pace⟩ := (State.lineOk_pixelTransfer mode).1 line
  obtain ⟨n, tick⟩ := Nat.exists_eq_add_of_le low
  rw [tick, Nat.add_sub_cancel_left] at pace
  obtain ⟨-, -, atEnd, -⟩ := Pace.after_bounds (n := n) (by omega)
  obtain ⟨len, x, atEnd', -⟩ := Pace.after_bounds (n := n + 1) (by omega)
  have hx : s.ppu.x ≠ 160 := fun h => by
    have := atEnd.1 ((congrArg Pace.x pace).symm.trans h)
    omega
  have pace' : s.countTick.pixelTransferTick.ppu.pace = Pace.after (n + 1) := by
    rw [State.pixelTransferTick_pace]
    exact congrArg Pace.tick pace
  obtain ⟨count, on', io, back, -, front, mode'⟩ := State.pixelTransferTick_keeps (s := s.countTick) hx mode
  rw [State.modeTick_pixelTransfer (s := s.countTick) mode]
  have fields : s.countTick.pixelTransferTick.ppu.fifo.length = (Pace.after (n + 1)).fifoLen ∧
      s.countTick.pixelTransferTick.ppu.x = (Pace.after (n + 1)).x :=
    ⟨congrArg Pace.fifoLen pace', congrArg Pace.x pace'⟩
  obtain ⟨len', x'⟩ := fields
  generalize s.countTick.pixelTransferTick = t at *
  have count : t.ppu.lineTick = 80 + (n + 1) := by
    rw [count]
    exact congrArg (· + 1) tick
  have ly : t.io.ly.toNat < 144 := by
    rw [io]
    exact ly
  rw [← len'] at len
  rw [← x'] at x atEnd'
  refine ⟨on'.trans on, len, x, ?_, front, fun _ wf => by rwa [back]⟩
  by_cases last : t.ppu.x = 160
  · rw [if_pos last] at mode'
    have := atEnd'.1 last
    exact (State.lineOk_hblank mode').2 ⟨ly, by omega, by omega⟩
  · rw [if_neg last] at mode'
    have := fun h => last (atEnd'.2 h)
    exact (State.lineOk_pixelTransfer mode').2
      ⟨ly, by omega, by omega, by rw [pace', count, Nat.add_sub_cancel_left]⟩

theorem toNat_add_one_of_lt {b : Byte} (h : b.toNat < 255) : (b + 1).toNat = b.toNat + 1 := by
  bv_omega

theorem State.modeTicked_hblank {s : State} (on : s.ppu.lcdOn = true) (ok : s.engineOk = true)
    (mode : s.ppu.mode = .hblank) : s.ModeTicked s.countTick.modeTick := by
  obtain ⟨len, x, line⟩ := (State.engineOk_iff_of_on on).1 ok
  obtain ⟨ly, low, high⟩ := (State.lineOk_hblank mode).1 line
  have next := toNat_add_one_of_lt (b := s.io.ly) (by omega)
  rw [State.modeTick_hblank (s := s.countTick) mode, State.hblankTick]
  split
  · dsimp only
    split
    · next entry =>
      refine ⟨on, len, x, ?_, fun _ => rfl, fun front _ => front⟩
      have entry : s.io.ly + 1 = 144 := entry
      have first : (s.io.ly + 1).toNat = 144 := congrArg BitVec.toNat entry
      exact (State.lineOk_vblank rfl).2 ⟨show 144 ≤ (s.io.ly + 1).toNat by omega,
        show (s.io.ly + 1).toNat ≤ 153 by omega, show 0 < 456 by decide⟩
    · next visible =>
      have visible : ¬ s.io.ly + 1 = 144 := visible
      refine ⟨on, len, x, ?_, id, fun _ => id⟩
      refine (State.lineOk_oamSearch rfl).2 ⟨?_, show 0 < 80 by decide⟩
      have : (s.io.ly + 1).toNat ≠ 144 := fun h => visible (BitVec.eq_of_toNat_eq h)
      exact show (s.io.ly + 1).toNat < 144 by omega
  · next before =>
    have before : ¬ s.ppu.lineTick + 1 = 456 := before
    refine ⟨on, len, x, ?_, id, fun _ => id⟩
    exact (State.lineOk_hblank (by exact mode)).2
      ⟨ly, show 255 ≤ s.ppu.lineTick + 1 by omega, show s.ppu.lineTick + 1 < 456 by omega⟩

theorem State.modeTicked_vblank {s : State} (on : s.ppu.lcdOn = true) (ok : s.engineOk = true)
    (mode : s.ppu.mode = .vblank) : s.ModeTicked s.countTick.modeTick := by
  obtain ⟨len, x, line⟩ := (State.engineOk_iff_of_on on).1 ok
  obtain ⟨low, high, tick⟩ := (State.lineOk_vblank mode).1 line
  have next := toNat_add_one_of_lt (b := s.io.ly) (by omega)
  rw [State.modeTick_vblank (s := s.countTick) mode, State.vblankTick]
  split
  · split
    · refine ⟨on, len, x, ?_, id, fun _ => id⟩
      exact (State.lineOk_oamSearch rfl).2 ⟨show 0 < 144 by decide, show 0 < 80 by decide⟩
    · next inner =>
      have inner : ¬ s.io.ly = 153 := inner
      refine ⟨on, len, x, ?_, id, fun _ => id⟩
      have : s.io.ly.toNat ≠ 153 := fun h => inner (BitVec.eq_of_toNat_eq h)
      exact (State.lineOk_vblank (by exact mode)).2
        ⟨show 144 ≤ (s.io.ly + 1).toNat by omega, show (s.io.ly + 1).toNat ≤ 153 by omega,
          show 0 < 456 by decide⟩
  · next before =>
    have before : ¬ s.ppu.lineTick + 1 = 456 := before
    refine ⟨on, len, x, ?_, id, fun _ => id⟩
    exact (State.lineOk_vblank (by exact mode)).2 ⟨low, high, show s.ppu.lineTick + 1 < 456 by omega⟩

theorem State.modeTicked {s : State} (on : s.ppu.lcdOn = true) (ok : s.engineOk = true) :
    s.ModeTicked s.countTick.modeTick := by
  cases mode : s.ppu.mode with
  | oamSearch => exact State.modeTicked_oamSearch on ok mode
  | pixelTransfer => exact State.modeTicked_pixelTransfer on ok mode
  | hblank => exact State.modeTicked_hblank on ok mode
  | vblank => exact State.modeTicked_vblank on ok mode

/-! ### The tick -/

/-- StatUpdate writes STAT and its condition as the last tick has to leave them (R441, R442). -/
theorem State.statUpdate_ppuOk {s : State} (on : s.ppu.lcdOn = true) (lcdc : s.io.lcdc.getLsbD 7 = true)
    (engine : s.engineOk = true) : s.statUpdate.ppuOk = true := by
  rw [State.statUpdate_eq rfl, State.ppuOk, Bool.and_eq_true, Bool.and_eq_true]
  refine ⟨⟨?_, decide_eq_true (on.trans lcdc.symm)⟩, ?_⟩
  · rw [State.engineOk_iff_of_on on] at engine
    exact (State.engineOk_iff_of_on (by exact on)).2 engine
  · simp [statByte_idem]

/-- LcdEnable starts the search of line 0 from the state the LCD is held in while off (R421). -/
theorem State.lcdEnable_engineOk {s : State} (ok : s.engineOk = true) : s.lcdEnable.engineOk = true := by
  obtain ⟨len, x, -⟩ := State.engineOk_iff.1 ok
  refine (State.engineOk_iff_of_on rfl).2 ⟨len, x, ?_⟩
  exact (State.lineOk_oamSearch rfl).2 ⟨show 0 < 144 by decide, show 0 < 80 by decide⟩

/-- A tick with LCDC bit 7 set leaves the PPU as the invariant says. -/
theorem State.tick_ppuOk_of_on {s : State} (ok : s.engineOk = true) (lcdc : s.io.lcdc.getLsbD 7 = true) :
    s.tick.ppuOk = true ∧ (s.ppu.front.wf = true → s.ppu.back.wf = true →
      s.tick.ppu.front.wf = true ∧ s.tick.ppu.back.wf = true) := by
  have run {u : State} (on : u.ppu.lcdOn = true) (lcdc : u.io.lcdc.getLsbD 7 = true) (ok : u.engineOk = true) :
      u.countTick.modeTick.statUpdate.ppuOk = true ∧ (u.ppu.front.wf = true → u.ppu.back.wf = true →
        u.countTick.modeTick.statUpdate.ppu.front.wf = true ∧
          u.countTick.modeTick.statUpdate.ppu.back.wf = true) := by
    obtain ⟨on', len, x, line, front, back⟩ := State.modeTicked on ok
    obtain ⟨lcdc', -⟩ := u.countTick.modeTick_only.io
    refine ⟨State.statUpdate_ppuOk on' ((congrArg (BitVec.getLsbD · 7) lcdc').trans lcdc)
      ((State.engineOk_iff_of_on on').2 ⟨len, x, line⟩), fun hf hb => ?_⟩
    rw [State.statUpdate_eq rfl]
    exact ⟨front hf, back hf hb⟩
  cases on : s.ppu.lcdOn with
  | true =>
    rw [State.tick_on lcdc on]
    exact run on lcdc ok
  | false =>
    rw [State.tick_switchesOn lcdc on]
    exact run (u := s.lcdEnable) rfl lcdc (State.lcdEnable_engineOk ok)

theorem State.ppuOk_of_off {s : State} (off : s.ppu.lcdOn = false) (lcdc : s.io.lcdc.getLsbD 7 = false)
    (engine : s.engineOk = true) : s.ppuOk = true := by
  rw [State.ppuOk, engine, off, lcdc]
  rfl

/-- A tick with LCDC bit 7 clear: LcdDisable, or nothing (R421). -/
theorem State.tick_ppuOk_of_off {s : State} (ok : s.engineOk = true) (lcdc : s.io.lcdc.getLsbD 7 = false) :
    s.tick.ppuOk = true ∧ s.tick.ppu.front = s.ppu.front ∧ s.tick.ppu.back = s.ppu.back := by
  rw [State.tick_off lcdc]
  cases on : s.ppu.lcdOn with
  | true =>
    rw [if_pos rfl]
    refine ⟨State.ppuOk_of_off rfl lcdc ?_, rfl, rfl⟩
    exact State.engineOk_iff.2 ⟨Nat.zero_le _, Nat.zero_le _, rfl⟩
  | false =>
    rw [if_neg (by decide)]
    exact ⟨State.ppuOk_of_off on lcdc ok, rfl, rfl⟩

theorem State.engineOk_of_ppuOk {s : State} (h : s.ppuOk = true) : s.engineOk = true := by
  rw [State.ppuOk, Bool.and_eq_true, Bool.and_eq_true] at h
  exact h.1.1

theorem State.tick_keeps {s : State} (ok : s.TickOk) : s.tick.TickOk ∧ s.tick.ppuOk = true := by
  obtain ⟨hm, hs, engine⟩ := ok
  obtain ⟨mem, rom, front, back⟩ := State.storageOk_iff.1 hs
  obtain ⟨-, -, -, -, -, -, -, -, -, -, -, map, boot, mem', rom', -⟩ := s.tick_only.fields
  have key : s.tick.ppuOk = true ∧ s.tick.ppu.front.wf = true ∧ s.tick.ppu.back.wf = true := by
    cases lcdc : s.io.lcdc.getLsbD 7 with
    | true =>
      obtain ⟨ok, frames⟩ := State.tick_ppuOk_of_on engine lcdc
      exact ⟨ok, frames front back⟩
    | false =>
      obtain ⟨ok, front', back'⟩ := State.tick_ppuOk_of_off engine lcdc
      exact ⟨ok, front' ▸ front, back' ▸ back⟩
  obtain ⟨ok, front, back⟩ := key
  exact ⟨⟨(State.mapOk_congr map boot).trans hm,
    State.storageOk_iff.2 ⟨mem' ▸ mem, rom' ▸ rom, front, back⟩, State.engineOk_of_ppuOk ok⟩, ok⟩

/-- Ticks, one at least, leave the PPU as the invariant says. -/
theorem State.ticks_keeps {s : State} (ok : s.TickOk) {n : Nat} (h : n ≠ 0) :
    (s.ticks n).TickOk ∧ (s.ticks n).ppuOk = true := by
  obtain ⟨k, rfl⟩ := Nat.exists_eq_succ_of_ne_zero h
  clear h
  induction k generalizing s with
  | zero => exact State.tick_keeps ok
  | succ k ih => exact ih (State.tick_keeps ok).1

/-! ### The step -/

/-- EI's delay and IME after an instruction that completes, from a state where the delay is at most 1. -/
theorem eiDelay_of_exec {i : Instr} {s t : State} (hi : i.WellFormed = true) (h : exec i s = .next t)
    (low : s.eiDelay ≤ 1) : t.eiDelay ≤ 1 ∨ (t.eiDelay = 2 ∧ t.ime = false) := by
  obtain ⟨-, ei⟩ | ⟨-, -, ei⟩ | ⟨-, -, ime, ei⟩ | ⟨-, -, ei⟩ := control_of_exec hi h
  · exact .inl (ei ▸ low)
  · exact .inl (by rw [ei]; decide)
  · exact .inr ⟨ei, ime⟩
  · exact .inl (by rw [ei]; decide)

theorem State.inv_of_ticks {s : State} (ok : s.TickOk) (cpu : s.cpuOk = true) {n : Nat} (h : n ≠ 0) :
    (s.ticks n).Inv := by
  obtain ⟨⟨hm, hs, -⟩, hp⟩ := State.ticks_keeps ok h
  obtain ⟨-, -, -, -, ime, ei, -, fault, refused, -⟩ := (s.ticks_only n).fields
  refine ⟨hs, hm, ?_, hp⟩
  rw [State.cpuOk_iff] at cpu ⊢
  rwa [ime, ei, fault, refused]

theorem State.TickOk.of_inv {s : State} (inv : s.Inv) : s.TickOk := by
  obtain ⟨hs, hm, -, hp⟩ := inv
  exact ⟨hm, hs, State.engineOk_of_ppuOk hp⟩

/-- Settles O59: the writes of a step keep what a tick needs, a tick keeps it and leaves the PPU as the
invariant says, and a step that completes pays for at least one. -/
theorem stepKeepsInvariant : Obligations.StepKeepsInvariant := by
  unfold Obligations.StepKeepsInvariant
  intro s t inv h
  have start := State.TickOk.of_inv inv
  obtain ⟨-, -, cpu, -⟩ := inv
  obtain ⟨fault, refused, low, quiet⟩ := State.cpuOk_iff.1 cpu
  obtain ⟨-, paid⟩ := (stepPaysFourTicksPerCycle s).2.2.2 t h
  obtain ⟨-, -, rfl⟩ | ⟨w, op, b1, b2, u, begins, -, run, rfl⟩ := step_next_cases h
  · exact State.inv_of_ticks (s := s.idle) ⟨start.map, start.storage, start.engine⟩ cpu (by decide)
  · have wf := assemble_wellFormed op b1 b2
    obtain ⟨changes, -, writes⟩ := did_of_exec wf run
    have ok : u.TickOk :=
      writes.tickOk (SameBus.tickOk (s := w) ⟨rfl, rfl, rfl, rfl, rfl, rfl⟩ (begins.tickOk start))
    obtain ⟨-, fault', refused', -⟩ := changes.fixed
    obtain ⟨-, count, -, -⟩ := endStep_ticks_fields u (4 * u.stepCycles)
    rw [count] at paid
    have delay := eiDelay_of_exec wf run (by simpa [begins.eiDelay] using low)
    refine State.inv_of_ticks (s := u.endStep) ?_ ?_ (by omega)
    · rw [State.endStep_fields]
      exact ⟨ok.map, ok.storage, ok.engine⟩
    · rw [State.cpuOk_iff, State.endStep_fields]
      refine ⟨fault'.trans (begins.fault.trans fault), refused'.trans (begins.refused.trans refused), ?_, ?_⟩
      · exact show u.eiDelay - 1 ≤ 1 by omega
      · obtain low | ⟨two, off⟩ := delay
        · exact .inl (show u.eiDelay - 1 = 0 by omega)
        · exact .inr (by simp [two, off])

end Sys2Proof.Machine
end

section
/-! The bus between steps: the accesses, the 16-bit accesses, BootHook and the set of mappings (R81 to R91,
R95). -/

namespace Sys2Proof.Machine

/-! ### The accesses -/

theorem State.hostRead8_some {s : State} {a : Word} {v : Byte} (h : s.read8 a = some v) :
    s.hostRead8 a = .ok v := by
  rw [State.hostRead8, h]

theorem State.hostRead8_none {s : State} {a : Word} (h : s.read8 a = none) :
    s.hostRead8 a = .error (s.fatal (.unmapped a .read s.pc0)) := by
  rw [State.hostRead8, h]

/-- A write to a read-only mapping is dropped, and runs no hook (R90). -/
theorem State.write8_readOnly {s : State} {a : Word} {m : Mapping} (v : Byte)
    (h : s.map.lookup a.toNat = some m) (ro : m.readOnly = true) : s.write8 a v = .ok s := by
  rw [State.write8, h]
  exact if_pos ro

theorem State.stored_writable {m : Mapping} (s : State) (a : Word) (v : Byte) (h : m.readOnly = false) :
    s.stored m a v = s.writeStore m.store a.toNat v := by
  rw [State.stored, if_neg (by simp [h])]

/-- Settles O43: each clause is a law of the bus. -/
theorem busAccesses : Obligations.BusAccesses := by
  unfold Obligations.BusAccesses
  refine fun s a => ⟨fun m h => State.read8_eq_some h, fun h => ?_, fun v h => State.hostRead8_some h,
    fun v h => State.write8_none v h, fun m v h ro => State.write8_readOnly v h ro, fun m v h ro hh => ?_⟩
  · exact ⟨State.read8_eq_none h, State.hostRead8_none (State.read8_eq_none h)⟩
  · exact (State.write8_plain v h hh).trans (congrArg Except.ok (State.stored_writable s a v ro))

/-! ### BootHook -/

/-- A write to 0xFF50 stores, and then is BootHook (R95). -/
theorem State.write8_boot {s : State} (hm : s.mapOk = true) (v : Byte) :
    s.write8 0xFF50 v = ({ s with io := { s.io with boot := v } } : State).bootHook v := by
  have mapped : s.map.lookup (0xFF50 : Word).toNat = some ⟨0xFF50, 1, false, .scalar .boot⟩ :=
    State.lookup_fixed hm (by decide) (by decide)
  rw [State.write8, mapped]
  rfl

/-- Settles O45: the store, then `bootHook_keeps` or `bootHook_acts`, whose map is `unbooted`. -/
theorem bootHookUnmapsBootRom : Obligations.BootHookUnmapsBootRom := by
  unfold Obligations.BootHookUnmapsBootRom
  intro s v hm
  rw [State.write8_boot hm]
  have ok : ({ s with io := { s.io with boot := v } } : State).mapOk = true := hm
  refine ⟨fun keeps => State.bootHook_keeps keeps, fun hv hb => ?_⟩
  have unbooted := State.unbooted_mapOk hm
  refine ⟨s.unbooted, State.bootHook_acts ok hv hb, fun a ha => ?_, fun a ha => ?_, unbooted⟩
  · exact State.lookup_boot unbooted (Nat.lt_succ_of_le ha.2)
  · exact State.lookup_unbooted hm (inRange_low ha)

/-! ### The 16-bit accesses -/

theorem State.oneMapping_iff {s : State} (hm : s.mapOk = true) (a : Word) :
    s.oneMapping a = true ↔ ∃ m ∈ s.map, m.base ≤ a.toNat ∧ a.toNat + 1 < m.base + m.size := by
  obtain ⟨sorted, -⟩ := State.mapOk_iff.1 hm
  unfold State.oneMapping
  constructor
  · intro h
    split at h
    · cases h
    · next m lookup =>
      obtain ⟨mem, low⟩ := BusMap.lookup_some lookup
      exact ⟨m, mem, (Mapping.contains_iff.1 low).1, (Mapping.contains_iff.1 h).2⟩
  · rintro ⟨m, mem, low, high⟩
    rw [BusMap.lookup_of_mem sorted mem (Mapping.contains_iff.2 ⟨low, by omega⟩)]
    exact Mapping.contains_iff.2 ⟨by omega, high⟩

/-- Both bytes of one mapping are there, the second at the next address. -/
theorem State.read8_pair {s : State} (hm : s.mapOk = true) {a : Word} {m : Mapping} (mem : m ∈ s.map)
    (low : m.base ≤ a.toNat) (high : a.toNat + 1 < m.base + m.size) :
    ∃ lo hi, s.read8 a = some lo ∧ s.read8 (a + 1) = some hi := by
  obtain ⟨sorted, valid, -⟩ := State.mapOk_iff.1 hm
  obtain ⟨-, inside⟩ := Mapping.valid_bounds (valid m mem)
  have next : (a + 1).toNat = a.toNat + 1 := by bv_omega
  exact ⟨_, _, State.read8_eq_some (BusMap.lookup_of_mem sorted mem (Mapping.contains_iff.2 ⟨low, by omega⟩)),
    State.read8_eq_some (BusMap.lookup_of_mem sorted mem (Mapping.contains_iff.2 (next ▸ ⟨by omega, high⟩)))⟩

/-- Settles O47: the two accesses are refused exactly where `oneMapping` fails. -/
theorem sixteenBitHostAccesses : Obligations.SixteenBitHostAccesses := by
  unfold Obligations.SixteenBitHostAccesses
  intro s a hm
  rw [← State.oneMapping_iff hm a]
  refine ⟨fun one => ?_, fun split => ?_⟩
  · obtain ⟨m, mem, low, high⟩ := (State.oneMapping_iff hm a).1 one
    obtain ⟨lo, hi, hlo, hhi⟩ := State.read8_pair hm mem low high
    refine ⟨lo, hi, hlo, hhi, ?_, fun v => ?_⟩
    · rw [State.read16, if_pos one, hlo, hhi]
      rfl
    · exact if_pos one
  · exact ⟨if_neg split, fun v => if_neg split⟩

/-! ### The set of mappings -/

theorem State.addMapping_error {s : State} {m n : Mapping} (hn : n ∈ s.map) (h : n.overlaps m = true) :
    s.addMapping m = .error (s.fatal (.mappingOverlap m.base m.size)) := by
  rw [State.addMapping, BusMap.add_of_overlap hn h]

theorem BusMap.remove_of_mem {ms : BusMap} {m : Mapping} (h : m ∈ ms) :
    ms.remove m.base m.size = some (ms.eraseP (·.isAt m.base m.size)) :=
  if_pos (List.any_eq_true.2 ⟨m, h, Mapping.isAt_iff.2 ⟨rfl, rfl⟩⟩)

theorem State.removeMapping_error {s : State} {base size : Nat}
    (h : ∀ n ∈ s.map, ¬(n.base = base ∧ n.size = size)) :
    s.removeMapping base size = .error (s.fatal (.mappingNotFound base size)) := by
  have none : s.map.remove base size = none := by
    refine if_neg fun any => ?_
    obtain ⟨n, hn, at_⟩ := List.any_eq_true.1 any
    exact h n hn (Mapping.isAt_iff.1 at_)
  rw [State.removeMapping, none]

/-- Settles O48: insertion, erasure and lookup over a sorted set. -/
theorem mappingSetOperations : Obligations.MappingSetOperations := by
  unfold Obligations.MappingSetOperations
  intro ms sorted valid
  refine ⟨fun m hv apart => ?_, ?_, fun m hm => ?_, ?_, fun m hm a low high => ?_, fun a none => ?_⟩
  · exact ⟨ms.insert m, BusMap.add_of_apart apart, BusMap.sorted_insert sorted hv valid apart,
      fun n => BusMap.mem_insert⟩
  · rintro s m n rfl hn overlaps
    exact State.addMapping_error hn overlaps
  · exact ⟨_, BusMap.remove_of_mem hm, BusMap.sorted_sublist sorted List.eraseP_sublist,
      BusMap.mem_eraseP sorted valid hm⟩
  · rintro s base size rfl absent
    exact State.removeMapping_error absent
  · exact BusMap.lookup_of_mem sorted hm (Mapping.contains_iff.2 ⟨low, high⟩)
  · exact BusMap.lookup_eq_none.2 fun m hm contains => none m hm (Mapping.contains_iff.1 contains)

end Sys2Proof.Machine
end

section
/-! The host's operations and its run to the next frame (R455 to R457, R465, R472). -/

namespace Sys2Proof.Machine

/-! ### Moves -/

theorem State.hostReset_error {s : State} {p : ResetParams} {e : FatalError} (h : resetWith p = .error e) :
    s.hostReset p = .fault (s.fatal e) := by
  rw [State.hostReset, h]

theorem State.hostReset_ok {s t : State} {p : ResetParams} {w : Option ResetWarning}
    (h : resetWith p = .ok (t, w)) : s.hostReset p = .next t := by
  rw [State.hostReset, h]

/-! ### A round of the run -/

theorem runUntilFrame_cons_fault {g : Gap} {s : State} {f : Fault} (gs : List Gap)
    (h : s.moves g.beforeRead = .fault f) : runUntilFrame (g :: gs) s = .fault f := by
  rw [runUntilFrame, h]

theorem runUntilFrame_cons_refused {g : Gap} {s : State} {r : Refusal} (gs : List Gap)
    (h : s.moves g.beforeRead = .refused r) : runUntilFrame (g :: gs) s = .refused r := by
  rw [runUntilFrame, h]

/-- What the run reads of the state the first moves of a round leave. -/
def readRound (g : Gap) (gs : List Gap) (u : State) : FrameResult :=
  match u.fault, u.refused with
  | some e, _ => .fault (.fatal e u)
  | none, some .stop => .refused (.stop u)
  | none, none =>
    if u.ppu.frameReady then .frame u.drain.1 u.drain.2
    else if u.stopRequested then .stopped u
    else
      match u.moves (g.afterRead ++ [.step]) with
      | .next t => runUntilFrame gs t
      | .fault f => .fault f
      | .refused r => .refused r

theorem runUntilFrame_cons_next {g : Gap} {s u : State} (gs : List Gap) (h : s.moves g.beforeRead = .next u) :
    runUntilFrame (g :: gs) s = readRound g gs u := by
  rw [runUntilFrame, h]
  rfl

theorem readRound_frame {g : Gap} {u : State} (gs : List Gap) (hf : u.fault = none) (hr : u.refused = none)
    (frame : u.ppu.frameReady = true) : readRound g gs u = .frame u.drain.1 u.drain.2 := by
  rw [readRound, hf, hr, frame]
  rfl

/-- A round that reads neither a frame nor a request ends with its other moves and a step. -/
theorem readRound_goesOn {g : Gap} {gs : List Gap} {u : State} (hf : u.fault = none) (hr : u.refused = none)
    (frame : u.ppu.frameReady = false) (stop : u.stopRequested = false) :
    readRound g gs u = match afterMove (u.moves g.afterRead) .step with
      | .next t => runUntilFrame gs t
      | .fault f => .fault f
      | .refused r => .refused r := by
  rw [readRound, hf, hr, frame, stop, State.moves_concat]
  rfl

/-- Settles O57: the moves are laws of the host, and each clause of the run is a branch of its round. -/
theorem hostOperations : Obligations.HostOperations := by
  unfold Obligations.HostOperations
  refine fun s => ⟨rfl, rfl, rfl, rfl, rfl, fun p t w h => State.hostReset_ok h,
    fun p e h => State.hostReset_error h, fun ms m e t h => ?_, fun ms m t h => ?_, fun ms m t h => ?_,
    fun g gs => ⟨fun f h => runUntilFrame_cons_fault gs h, fun r h => runUntilFrame_cons_refused gs h,
      fun u h => ?_⟩⟩
  · rw [State.moves_concat, h]
    refine ⟨?_, fun other => afterMove_fault other _⟩
    rintro p rfl
    rfl
  · rw [State.moves_concat, h]
    refine ⟨?_, fun other => afterMove_refused other _⟩
    rintro p rfl
    rfl
  · rw [State.moves_concat, h]
    rfl
  · rw [runUntilFrame_cons_next gs h]
    refine ⟨fun e hf => ?_, fun hf hr => ?_, fun hf hr => ⟨fun frame => ?_, fun frame stop => ?_,
      fun frame stop => ?_⟩⟩
    · rw [readRound, hf]
    · rw [readRound, hf, hr]
    · exact readRound_frame gs hf hr frame
    · rw [readRound, hf, hr, frame, stop]
      rfl
    · rw [readRound_goesOn hf hr frame stop]
      refine ⟨fun f h => ?_, fun r h => ?_, fun v h => ⟨fun t ht => ?_, fun f hf => ?_, fun r hr => ?_⟩⟩
      · rw [h, afterMove_fault fun _ step => by cases step]
      · rw [h, afterMove_refused fun _ step => by cases step]
      all_goals rw [h, afterMove_next, State.move]
      · rw [ht]
      · rw [hf]
      · rw [hr]

end Sys2Proof.Machine
end

section
/-! What a reset builds (R64, R100 to R106, R460 to R463). -/

namespace Sys2Proof.Machine

/-! ### A reset that completes -/

/-- The storage a reset fills: the image, RAM and the platform's bytes (R101, R106, R460). -/
def ResetParams.memory (p : ResetParams) (ms : BusMap) : Memory :=
  loadExtra (fillRam ms (.image 0 (p.rom.take Config.maxRomSize)) p.ramInit) p.extra

/-- What the map and the storage of a machine a reset builds look like, with or without a boot ROM. -/
structure ResetParams.Builds (p : ResetParams) (b : Bool) (s : State) : Prop where
  bootMapped : s.bootMapped = b
  sorted : s.map.Sorted = true
  mem_map : ∀ n, n ∈ s.map ↔ n ∈ baseMap b p.rom.length p.cartRamSize ∨ ∃ e ∈ p.extra, n = e.mapping
  memory : s.mem = p.memory s.map

/-- The two columns of R64, over the map and the storage. -/
inductive ResetParams.Column (p : ResetParams) (s : State) : Prop where
  | postBoot (h : (usableBootRom p.bootRom).1 = none)
      (eq : s = .postBoot s.map s.mem (p.rom.getD 0x014D 0))
  | atBoot (image : List Byte) (h : (usableBootRom p.bootRom).1 = some image)
      (eq : s = .atBoot s.map s.mem image p.regInit)

theorem resetWith_ok {p : ResetParams} {s : State} {w : Option ResetWarning} (ok : p.Allowed)
    (h : resetWith p = .ok (s, w)) :
    p.Builds (usableBootRom p.bootRom).1.isSome s ∧ p.Column s ∧ w = (usableBootRom p.bootRom).2 := by
  obtain ⟨base, spec⟩ := baseMap_spec (usableBootRom p.bootRom).1.isSome p.rom.length ok.1
  unfold resetWith at h
  split at h
  · cases h
  dsimp only at h
  split at h
  · cases h
  next ms added =>
  obtain ⟨sorted, mem_map⟩ := addExtra_sound base (fun n hn => (spec n hn).1) ok.2 added
  split at h
  · next none =>
    injection h with h
    injection h with hs hw
    subst hs
    exact ⟨⟨by rw [none]; rfl, sorted, mem_map, rfl⟩, .postBoot none rfl, hw.symm⟩
  · next image some =>
    injection h with h
    injection h with hs hw
    subst hs
    exact ⟨⟨by rw [some]; rfl, sorted, mem_map, rfl⟩, .atBoot image some rfl, hw.symm⟩

theorem resetWith_short {p : ResetParams} (h : p.rom.length < 16384) :
    resetWith p = .error (.romTooShort p.rom.length) := if_pos h

theorem resetWith_error {p : ResetParams} {e : FatalError} (h : 16384 ≤ p.rom.length)
    (added : addExtra (baseMap (usableBootRom p.bootRom).1.isSome p.rom.length p.cartRamSize) p.extra =
      .error e) :
    resetWith p = .error e := by
  rw [resetWith, if_neg (show ¬ p.rom.length < Config.minRomSize from Nat.not_lt_of_le h)]
  dsimp only
  rw [added]

theorem resetWith_completes {p : ResetParams} {ms : BusMap} (h : 16384 ≤ p.rom.length)
    (added : addExtra (baseMap (usableBootRom p.bootRom).1.isSome p.rom.length p.cartRamSize) p.extra =
      .ok ms) :
    ∃ s w, resetWith p = .ok (s, w) := by
  rw [resetWith, if_neg (show ¬ p.rom.length < Config.minRomSize from Nat.not_lt_of_le h)]
  dsimp only
  rw [added]
  cases (usableBootRom p.bootRom).1 with
  | none => exact ⟨_, _, rfl⟩
  | some image => exact ⟨_, _, rfl⟩

/-! ### It meets the invariant -/

theorem ResetParams.memory_wf (p : ResetParams) (ms : BusMap) : (p.memory ms).wf = true :=
  wf_loadExtra (wf_fillRam (Memory.wf_image _ _) _) _

theorem ResetParams.Builds.mapOk {p : ResetParams} {b : Bool} {s : State} (h : p.Builds b s)
    (ok : p.Allowed) : s.mapOk = true := by
  obtain ⟨-, spec⟩ := baseMap_spec b p.rom.length ok.1
  have base {n : Mapping} (hn : n ∈ baseMap b p.rom.length p.cartRamSize) : n ∈ s.map :=
    (h.mem_map n).2 (.inl hn)
  refine State.mapOk_iff.2 ⟨h.sorted, fun n hn => ?_, fun n hn => ?_, ?_, fun n hn => base ?_⟩
  · obtain hn | ⟨e, he, rfl⟩ := (h.mem_map n).1 hn
    · exact (spec n hn).1
    · exact ok.2 e he
  · obtain hn | ⟨e, -, rfl⟩ := (h.mem_map n).1 hn
    · exact (spec n hn).2.1
    · rfl
  · rw [h.bootMapped]
    exact base (mem_baseMap.2 (.inl rfl))
  · obtain hn | hn := List.mem_append.1 hn
    · simp only [List.mem_cons, List.not_mem_nil, or_false] at hn
      obtain rfl | rfl := hn
      · exact mem_baseMap.2 (.inr (.inl rfl))
      · exact mem_baseMap.2 (.inr (.inr (.inr (.inl rfl))))
    · exact mem_baseMap.2 (.inr (.inr (.inr (.inr (.inr hn)))))

/-- The state both columns share, with the registers of the boot column. -/
theorem ppuOk_columns : State.reset.ppuOk = true ∧
    ({ State.reset with io := .boot0, ppu := .init false } : State).ppuOk = true := by decide

theorem ResetParams.Builds.inv {p : ResetParams} {b : Bool} {s : State} (h : p.Builds b s) (col : p.Column s)
    (ok : p.Allowed) : s.Inv := by
  have mem : s.mem.wf = true := by
    rw [h.memory]
    exact p.memory_wf _
  refine ⟨State.storageOk_iff.2 ⟨mem, ?_⟩, h.mapOk ok, ?_⟩
  · obtain ⟨-, eq⟩ | ⟨image, -, eq⟩ := col
    · rw [eq]
      exact ⟨rfl, rfl, rfl⟩
    · rw [eq]
      exact ⟨Memory.wf_image 0 image, rfl, rfl⟩
  · obtain ⟨-, eq⟩ | ⟨image, -, eq⟩ := col
    · rw [eq]
      exact ⟨rfl, (State.ppuOk_congr rfl rfl).trans ppuOk_columns.1⟩
    · rw [eq]
      exact ⟨rfl, (State.ppuOk_congr rfl rfl).trans ppuOk_columns.2⟩

theorem inv_of_resetWith {p : ResetParams} {s : State} {w : Option ResetWarning} (ok : p.Allowed)
    (h : resetWith p = .ok (s, w)) : s.Inv := by
  obtain ⟨builds, col, -⟩ := resetWith_ok ok h
  exact builds.inv col ok

/-- Settles O58, by evaluation of the one state. -/
theorem resetMeetsInvariant : Obligations.ResetMeetsInvariant := by
  unfold Obligations.ResetMeetsInvariant State.Inv
  decide

end Sys2Proof.Machine
end

section
/-! The moves of the host and of the collaborators keep the invariant (R400, R455, R472). -/

namespace Sys2Proof.Machine

/-- A collaborator's move reaches no field the invariant speaks of but the storage (R400). -/
theorem State.collab_keeps (s : State) (m : CollabMove) :
    (s.collab m).map = s.map ∧ (s.collab m).bootMapped = s.bootMapped ∧ (s.collab m).ppu = s.ppu ∧
      (s.collab m).cpuOk = s.cpuOk ∧ (s.collab m).io.lcdc = s.io.lcdc ∧ (s.collab m).io.stat = s.io.stat ∧
      (s.collab m).io.ly = s.io.ly ∧ (s.collab m).io.lyc = s.io.lyc := by
  cases m with
  | write r v => cases r <;> exact ⟨rfl, rfl, rfl, rfl, rfl, rfl, rfl, rfl⟩
  | writeExtra a v =>
    rw [State.collab]
    split <;> exact ⟨rfl, rfl, rfl, rfl, rfl, rfl, rfl, rfl⟩
  | _ => exact ⟨rfl, rfl, rfl, rfl, rfl, rfl, rfl, rfl⟩

theorem State.collab_inv {s : State} (inv : s.Inv) (m : CollabMove) : (s.collab m).Inv := by
  obtain ⟨hs, hm, hc, hp⟩ := inv
  obtain ⟨map, boot, ppu, cpu, lcdc, stat, ly, lyc⟩ := s.collab_keeps m
  refine ⟨State.collab_storageOk hs m, (State.mapOk_congr map boot).trans hm, cpu.trans hc, ?_⟩
  simpa only [State.ppuOk, State.engineOk, State.lineOk, State.offOk, ppu, lcdc, stat, ly, lyc] using hp

theorem State.hostReset_inv {s t : State} {p : ResetParams} (ok : p.Allowed) (h : s.hostReset p = .next t) :
    t.Inv := by
  obtain ⟨w, h⟩ := State.hostReset_eq_next h
  exact inv_of_resetWith ok h

theorem State.move_inv {s t : State} {m : Move} (inv : s.Inv) (ok : ∀ p, m = .reset p → p.Allowed)
    (h : s.move m = .next t) : t.Inv := by
  cases m with
  | reset p => exact State.hostReset_inv (ok p rfl) h
  | step => exact stepKeepsInvariant s t inv h
  | collab m =>
    cases h
    exact State.collab_inv inv m
  | _ =>
    cases h
    exact inv

/-- Settles O60, by induction from the last move: it goes on from a state that meets the invariant, or is a
reset, which needs nothing of the state before it. -/
theorem movesKeepInvariant : Obligations.MovesKeepInvariant := by
  unfold Obligations.MovesKeepInvariant
  intro s t ms inv ok h
  induction ms using List.reverseRecOn generalizing t with
  | nil =>
    cases h
    exact inv
  | append_singleton ms m ih =>
    rw [State.moves_concat] at h
    obtain ⟨u, run, h⟩ | ⟨u, p, rfl, reset⟩ := afterMove_eq_next h
    · refine State.move_inv (ih u (fun p hp => ok p (List.mem_append_left _ hp)) run) ?_ h
      rintro p rfl
      exact ok p (by simp)
    · exact State.hostReset_inv (ok p (by simp)) reset

end Sys2Proof.Machine
end

section
/-! The reset table: what every byte reads right after a reset (R64, R100 to R106, R460 to R463). -/

namespace Sys2Proof.Machine

theorem toNat_ofNat_of_lt {k : Nat} (h : k < 0x10000) : (BitVec.ofNat 16 k).toNat = k := by
  rw [BitVec.toNat_ofNat]
  exact Nat.mod_eq_of_lt h

/-! ### What is drawn from `RAM_INIT` -/

theorem drawn_of_lt {ms : BusMap} {a : Nat} (h : a < 0x8000) : drawn ms a = false := by
  simp [drawn, Nat.not_le_of_lt h]

theorem drawn_zeros {ms : BusMap} {a : Nat} (low : 0xFEA0 ≤ a) (high : a ≤ 0xFEFF) : drawn ms a = false := by
  simp [drawn, low, high]

theorem drawn_sound {ms : BusMap} {a : Nat} (low : 0xFF10 ≤ a) (high : a ≤ 0xFF26) : drawn ms a = false := by
  simp [drawn, low, high]

theorem drawn_ram {ms : BusMap} {a : Nat} {m : Mapping} (low : 0x8000 ≤ a)
    (zeros : ¬(0xFEA0 ≤ a ∧ a ≤ 0xFEFF)) (sound : ¬(0xFF10 ≤ a ∧ a ≤ 0xFF26)) (lookup : ms.lookup a = some m)
    (store : m.store = .memory) : drawn ms a = true := by
  simp [drawn, low, lookup, store]
  omega

/-! ### Reads of the base map -/

/-- No byte of the image stands at 0x8000 or above. -/
theorem read_image_high (rom : List Byte) {a : Nat} (ha : 0x8000 ≤ a) :
    (Memory.image 0 (rom.take Config.maxRomSize)).read a = 0 := by
  refine Memory.read_image_past ?_
  have : (rom.take Config.maxRomSize).length ≤ 0x8000 := List.length_take_le _ _
  omega


namespace ResetParams.Builds

variable {p : ResetParams} {b : Bool} {s : State}

theorem lookup_base (h : p.Builds b s) {m : Mapping} (hm : m ∈ baseMap b p.rom.length p.cartRamSize) {a : Nat}
    (ha : m.contains a = true) : s.map.lookup a = some m :=
  BusMap.lookup_of_mem h.sorted ((h.mem_map m).2 (.inl hm)) ha

/-- An address of the base map is in no mapping of the platform: its byte is the image's or `RAM_INIT`'s. -/
theorem read_base (h : p.Builds b s) (ok : p.Allowed) {m : Mapping}
    (hm : m ∈ baseMap b p.rom.length p.cartRamSize) {a : Nat} (ha : m.contains a = true) :
    s.mem.read a = (fillRam s.map (.image 0 (p.rom.take Config.maxRomSize)) p.ramInit).read a := by
  rw [h.memory]
  refine read_loadExtra_other (wf_fillRam (Memory.wf_image _ _) _) fun e he => ?_
  rw [Bool.eq_false_iff]
  intro platform
  have same := BusMap.eq_of_contains h.sorted ((h.mem_map m).2 (.inl hm)) ((h.mem_map _).2 (.inr ⟨e, he, rfl⟩))
    ha platform
  exact ((baseMap_spec b p.rom.length ok.1).2 m hm).2.2 (same ▸ rfl)

theorem read8_base (h : p.Builds b s) {m : Mapping} (hm : m ∈ baseMap b p.rom.length p.cartRamSize) {a : Word}
    (ha : m.contains a.toNat = true) (store : m.store = .memory) : s.read8 a = some (s.mem.read a.toNat) := by
  rw [State.read8_eq_some (h.lookup_base hm ha), store]
  rfl

/-- The cartridge's bytes, under a boot ROM too. -/
theorem read_rom (h : p.Builds b s) (ok : p.Allowed) {k : Nat} (hk : k < min p.rom.length 0x8000) :
    some (s.mem.read k) = p.rom[k]? := by
  obtain ⟨len, rom⟩ : k < p.rom.length ∧ k < 0x8000 := by omega
  have mapped : ∃ m ∈ baseMap b p.rom.length p.cartRamSize, m.contains k = true := by
    by_cases first : k < 0x100
    · exact ⟨_, mem_baseMap.2 (.inl rfl), Mapping.contains_iff.2 (by simp [bootArea, first])⟩
    by_cases low : k < 0x4000
    · exact ⟨_, mem_baseMap.2 (.inr (.inl rfl)), Mapping.contains_iff.2 (by dsimp only; omega)⟩
    · exact ⟨_, mem_baseMap.2 (.inr (.inr (.inl (mem_bank1.2 ⟨by omega, rfl⟩)))),
        Mapping.contains_iff.2 (by dsimp only; omega)⟩
  obtain ⟨m, hm, ha⟩ := mapped
  have inImage : k < (p.rom.take Config.maxRomSize).length := by
    rw [List.length_take]
    exact Nat.lt_min.2 ⟨rom, len⟩
  have byte := Memory.read_image (a := 0) inImage
  rw [Nat.zero_add, List.getElem_take] at byte
  rw [h.read_base ok hm ha, read_fillRam (Memory.wf_image _ _) _ (drawn_of_lt rom), byte,
    List.getElem?_eq_getElem len]

/-- A RAM takes its bytes from `RAM_INIT` (R103, R460). -/
theorem read8_ram (h : p.Builds b s) (ok : p.Allowed) (wf : p.ramInit.wf = true) {m : Mapping}
    (hm : m ∈ baseMap b p.rom.length p.cartRamSize) {a : Word} (ha : m.contains a.toNat = true)
    (store : m.store = .memory) (low : 0x8000 ≤ a.toNat) (zeros : ¬(0xFEA0 ≤ a.toNat ∧ a.toNat ≤ 0xFEFF))
    (sound : ¬(0xFF10 ≤ a.toNat ∧ a.toNat ≤ 0xFF26)) : s.read8 a = some (p.ramInit.read a.toNat) := by
  have byte := read_fillRam_drawn (Memory.wf_image 0 (p.rom.take Config.maxRomSize)) wf
    (drawn_ram low zeros sound (h.lookup_base hm ha) store) (read_image_high p.rom low)
  rw [h.read8_base hm ha store, h.read_base ok hm ha, byte]

/-- What no initial value reaches reads 0 (R105). -/
theorem read8_zero (h : p.Builds b s) (ok : p.Allowed) {m : Mapping}
    (hm : m ∈ baseMap b p.rom.length p.cartRamSize) {a : Word} (ha : m.contains a.toNat = true)
    (store : m.store = .memory) (low : 0x8000 ≤ a.toNat) (none : drawn s.map a.toNat = false) :
    s.read8 a = some 0 := by
  rw [h.read8_base hm ha store, h.read_base ok hm ha, read_fillRam (Memory.wf_image _ _) _ none,
    read_image_high p.rom low]

theorem read8_inRam (h : p.Builds b s) (ok : p.Allowed) (wf : p.ramInit.wf = true) {a : Word}
    (ha : inRam p.cartRamSize a) : s.read8 a = some (p.ramInit.read a.toNat) := by
  have fixed {m : Mapping} (hm : m ∈ fixedMap) : m ∈ baseMap b p.rom.length p.cartRamSize :=
    mem_baseMap.2 (.inr (.inr (.inr (.inr (.inr hm)))))
  have size := ok.1
  simp only [inRam, inRange, BitVec.ofNat_eq_ofNat, BitVec.toNat_ofNat, Nat.reducePow, Nat.reduceMod] at ha
  obtain ⟨low, high⟩ | ⟨low, high⟩ | ⟨low, high⟩ | ⟨low, high⟩ | ⟨low, high⟩ := ha
  · exact h.read8_ram ok wf (m := ⟨0x8000, 0x2000, false, .memory⟩)
      (mem_baseMap.2 (.inr (.inr (.inr (.inl rfl)))))
      (Mapping.contains_iff.2 ⟨low, by dsimp only; omega⟩) rfl (by omega) (by omega) (by omega)
  · exact h.read8_ram ok wf (m := ⟨0xA000, p.cartRamSize, false, .memory⟩)
      (mem_baseMap.2 (.inr (.inr (.inr (.inr (.inl (mem_cartRam.2 ⟨by omega, rfl⟩)))))))
      (Mapping.contains_iff.2 ⟨low, high⟩) rfl (by omega) (by omega) (by omega)
  · exact h.read8_ram ok wf (m := ⟨0xC000, 0x2000, false, .memory⟩) (fixed (by decide))
      (Mapping.contains_iff.2 ⟨low, by dsimp only; omega⟩) rfl (by omega) (by omega) (by omega)
  · exact h.read8_ram ok wf (m := ⟨0xFE00, 0xA0, false, .memory⟩) (fixed (by decide))
      (Mapping.contains_iff.2 ⟨low, by dsimp only; omega⟩) rfl (by omega) (by omega) (by omega)
  · exact h.read8_ram ok wf (m := ⟨0xFF80, 127, false, .memory⟩) (fixed (by decide))
      (Mapping.contains_iff.2 ⟨low, by dsimp only; omega⟩) rfl (by omega) (by omega) (by omega)

theorem read8_unusable (h : p.Builds b s) (ok : p.Allowed) {a : Word} (ha : inRange 0xFEA0 0xFEFF a) :
    s.read8 a = some 0 := by
  simp only [inRange, BitVec.ofNat_eq_ofNat, BitVec.toNat_ofNat, Nat.reducePow, Nat.reduceMod] at ha
  obtain ⟨low, high⟩ := ha
  exact h.read8_zero ok (m := ⟨0xFEA0, 0x60, true, .memory⟩)
    (mem_baseMap.2 (.inr (.inr (.inr (.inr (.inr (by decide)))))))
    (Mapping.contains_iff.2 ⟨low, by dsimp only; omega⟩) rfl (by omega) (drawn_zeros low high)

theorem read8_sound (h : p.Builds b s) (ok : p.Allowed) {k : Nat} (hk : k < 23) :
    s.read8 (0xFF10 + .ofNat 16 k) = some 0 := by
  have at_ : (0xFF10 + BitVec.ofNat 16 k : Word).toNat = 0xFF10 + k := by
    rw [BitVec.toNat_add, toNat_ofNat_of_lt (by omega)]
    exact Nat.mod_eq_of_lt (show 0xFF10 + k < 0x10000 by omega)
  exact h.read8_zero ok (m := ⟨0xFF10, 23, false, .memory⟩)
    (mem_baseMap.2 (.inr (.inr (.inr (.inr (.inr (by decide)))))))
    (Mapping.contains_iff.2 (by dsimp only; omega)) rfl (by omega) (drawn_sound (by omega) (by omega))

/-- A platform's mapping reads the bytes given with it (log 24). -/
theorem read8_extra (h : p.Builds b s) (ok : p.Allowed)
    (apart : p.extra.Pairwise fun e e' => e.mapping.overlaps e'.mapping = false) {e : ExtraMapping}
    (he : e ∈ p.extra) {k : Nat} (hk : k < e.bytes.length) :
    s.read8 (.ofNat 16 (e.base + k)) = e.bytes[k]? := by
  have inside : e.base + e.bytes.length ≤ 0x10000 := (Mapping.valid_bounds (ok.2 e he)).2
  have at_ := toNat_ofNat_of_lt (k := e.base + k) (by omega)
  have mapped : s.map.lookup (BitVec.ofNat 16 (e.base + k)).toNat = some e.mapping := by
    rw [at_]
    exact BusMap.lookup_of_mem h.sorted ((h.mem_map _).2 (.inr ⟨e, he, rfl⟩))
      (Mapping.contains_iff.2 ⟨Nat.le_add_right _ _, Nat.add_lt_add_left hk _⟩)
  have byte : s.mem.read (e.base + k) = e.bytes[k] := by
    rw [h.memory]
    exact read_loadExtra (wf_fillRam (Memory.wf_image _ _) _) apart he hk
  rw [State.read8_eq_some mapped, List.getElem?_eq_getElem hk, ← byte, at_]
  rfl

/-- The cartridge's bytes above the boot area are on the bus. -/
theorem read8_rom (h : p.Builds b s) (ok : p.Allowed) {k : Nat} (low : 256 ≤ k)
    (hk : k < min p.rom.length 0x8000) :
    s.read8 (.ofNat 16 k) = p.rom[k]? := by
  have at_ := toNat_ofNat_of_lt (k := k) (by omega)
  rw [← h.read_rom ok hk, ← at_]
  rw [BitVec.ofNat_toNat, BitVec.setWidth_eq]
  by_cases first : k < 0x4000
  · exact h.read8_base (mem_baseMap.2 (.inr (.inl rfl))) (Mapping.contains_iff.2 (by dsimp only; omega)) rfl
  · exact h.read8_base (mem_baseMap.2 (.inr (.inr (.inl (mem_bank1.2 ⟨by omega, rfl⟩)))))
      (Mapping.contains_iff.2 (by dsimp only; omega)) rfl

end ResetParams.Builds

/-! ### The boot area -/

theorem read8_boot_off {p : ResetParams} {s : State} (h : p.Builds false s) (ok : p.Allowed)
    (len : 16384 ≤ p.rom.length) {k : Nat} (hk : k < 256) : s.read8 (.ofNat 16 k) = p.rom[k]? := by
  have at_ := toNat_ofNat_of_lt (k := k) (by omega)
  rw [← h.read_rom ok (by omega : k < min p.rom.length 0x8000), h.read8_base (mem_baseMap.2 (.inl rfl))
    (Mapping.contains_iff.2 (by rw [at_]; exact ⟨Nat.zero_le _, hk⟩)) rfl, at_]

theorem read8_boot_on {p : ResetParams} {s : State} {image : List Byte} (h : p.Builds true s)
    (rom : s.bootRom = .image 0 image) (len : image.length = 256) {k : Nat} (hk : k < 256) :
    s.read8 (.ofNat 16 k) = image[k]? := by
  have at_ := toNat_ofNat_of_lt (k := k) (by omega)
  have byte := Memory.read_image (a := 0) (vs := image) (len ▸ hk)
  rw [State.read8_eq_some (h.lookup_base (m := bootArea true) (mem_baseMap.2 (.inl rfl))
    (Mapping.contains_iff.2 (by rw [at_]; exact ⟨Nat.zero_le _, hk⟩))), at_, List.getElem?_eq_getElem (len ▸ hk),
    ← byte, Nat.zero_add, ← rom]
  rfl

end Sys2Proof.Machine
end

section
/-! The reset of every allowed parameter (R64, R82, R100 to R106, R460 to R463). -/

namespace Sys2Proof.Machine

/-! ### The platform's mappings over the base map -/

theorem apart_append_iff {ms : BusMap} {es : List ExtraMapping} :
    BusMap.Apart (ms ++ es.map ExtraMapping.mapping) ↔ BusMap.Apart ms ∧
      (es.Pairwise fun e e' => e.mapping.overlaps e'.mapping = false) ∧
      ∀ n ∈ ms, ∀ e ∈ es, n.overlaps e.mapping = false := by
  rw [BusMap.Apart, List.pairwise_append, List.pairwise_map]
  simp [BusMap.Apart]

/-- Mappings apart from each other and from the base map are all added to it, whatever backs the boot area. -/
theorem addExtra_baseMap {rom ram : Nat} {es : List ExtraMapping} (b : Bool) (size : ram ≤ 0x2000)
    (valid : ∀ e ∈ es, e.mapping.valid = true)
    (apart : BusMap.Apart (baseMap false rom ram ++ es.map ExtraMapping.mapping)) :
    ∃ ms : BusMap, addExtra (baseMap b rom ram) es = .ok ms ∧
      ∀ n, n ∈ ms ↔ n ∈ baseMap b rom ram ∨ ∃ e ∈ es, n = e.mapping := by
  obtain ⟨-, each, fromBase⟩ := apart_append_iff.1 apart
  obtain ⟨sorted, spec⟩ := baseMap_spec b rom size
  obtain ⟨ms, added, -, mem⟩ := addExtra_ok sorted (fun n hn => (spec n hn).1) valid
    (fun n hn e he => overlaps_baseMap (fun m hm => fromBase m hm e he) n hn) each
  exact ⟨ms, added, mem⟩

/-- A mapping that overlaps one of the base map or one before it is the error (R82). -/
theorem addExtra_baseMap_error {rom ram : Nat} {pre post : List ExtraMapping} {e : ExtraMapping} (b : Bool)
    (size : ram ≤ 0x2000) (valid : ∀ e ∈ pre, e.mapping.valid = true)
    (apart : BusMap.Apart (baseMap false rom ram ++ pre.map ExtraMapping.mapping))
    (overlap : ∃ n ∈ baseMap false rom ram ++ pre.map ExtraMapping.mapping, n.overlaps e.mapping = true) :
    addExtra (baseMap b rom ram) (pre ++ e :: post) = .error (.mappingOverlap e.base e.bytes.length) := by
  obtain ⟨ms, added, mem⟩ := addExtra_baseMap b size valid apart
  have found : ∃ n ∈ ms, n.overlaps e.mapping = true := by
    by_contra none
    have fromBase : ∀ m ∈ baseMap b rom ram, m.overlaps e.mapping = false := fun m hm =>
      Bool.eq_false_iff.2 fun h => none ⟨m, (mem m).2 (.inl hm), h⟩
    obtain ⟨n, hn, h⟩ := overlap
    obtain hn | hn := List.mem_append.1 hn
    · exact absurd h (Bool.eq_false_iff.1 (overlaps_baseMap fromBase n hn))
    · obtain ⟨e', he', rfl⟩ := List.mem_map.1 hn
      exact none ⟨_, (mem _).2 (.inr ⟨e', he', rfl⟩), h⟩
  obtain ⟨n, hn, h⟩ := found
  exact addExtra_overlap added hn h

/-! ### The columns of R64 -/

theorem usableBootRom_of_ne {o : Option (List Byte)} (h : ∀ b, o = some b → b.length ≠ 256) :
    usableBootRom o = (none, o.map fun b => .malformedBootRom b.length) := by
  cases o with
  | none => rfl
  | some b => exact if_neg (h b rfl)

theorem usableBootRom_of_eq {b : List Byte} (h : b.length = 256) : usableBootRom (some b) = (some b, none) :=
  if_pos h

theorem headerFlags_toByte (hdr : Byte) : (headerFlags hdr).toByte = if hdr = 0 then 0xB0 else 0x80 := by
  by_cases zero : hdr = 0
  · subst zero
    rfl
  · rw [headerFlags, decide_eq_false zero, if_neg zero]
    rfl

theorem Flags.toByte_ofByte (v : Byte) : (Flags.ofByte v).toByte = v &&& 0xF0 := by
  revert v
  decide

theorem State.postBoot_f {ms : BusMap} {mem : Memory} {rom : List Byte} (len : 16384 ≤ rom.length) :
    (State.postBoot ms mem (rom.getD 0x014D 0)).f = if rom[0x14D]? = some 0x00 then 0xB0 else 0x80 := by
  have inside : 0x14D < rom.length := by omega
  rw [List.getD_eq_getElem rom 0 inside, List.getElem?_eq_getElem inside]
  exact (headerFlags_toByte _).trans (if_congr Option.some_inj.symm rfl rfl)

/-! ### The obligation -/

/-- Settles O56: what a reset builds is read off `resetWith_ok`, every byte by the lemma of its area. -/
theorem resetBuildsMachine : Obligations.ResetBuildsMachine := by
  unfold Obligations.ResetBuildsMachine
  intro p size wf valid
  have ok : p.Allowed := ⟨size, valid⟩
  refine ⟨resetWith_short, fun len pre e post split apart overlap => resetWith_error len ?_, fun len apart => ?_⟩
  · rw [split]
    refine addExtra_baseMap_error _ size (fun e' he' => valid e' ?_) apart overlap
    rw [split]
    exact List.mem_append_left _ he'
  obtain ⟨ms, added, -⟩ := addExtra_baseMap (usableBootRom p.bootRom).1.isSome size valid apart
  obtain ⟨s, w, done⟩ := resetWith_completes len added
  obtain ⟨builds, column, warning⟩ := resetWith_ok ok done
  obtain ⟨-, each, -⟩ := apart_append_iff.1 apart
  have control : s.ime = false ∧ s.eiDelay = 0 ∧ s.halted = false ∧ s.fault = none ∧ s.refused = none ∧
      s.cyclesTotal = 0 ∧ s.stopRequested = false := by
    obtain ⟨-, eq⟩ | ⟨image, -, eq⟩ := column <;> rw [eq] <;> exact ⟨rfl, rfl, rfl, rfl, rfl, rfl, rfl⟩
  obtain ⟨ime, ei, halted, fault, refused, total, stop⟩ := control
  refine ⟨s, w, done, builds.inv column ok, ime, ei, halted, fault, refused, total, stop,
    builds.bootMapped.symm ▸ builds.mem_map, fun k => builds.read8_rom ok, fun a => builds.read8_inRam ok wf,
    fun a => builds.read8_unusable ok, fun k => builds.read8_sound ok,
    fun e he k => builds.read8_extra ok each he, fun unusable => ?_, fun b some usable => ?_⟩
  · rw [usableBootRom_of_ne unusable] at builds warning
    refine ⟨warning, builds.bootMapped, ?_⟩
    have boot (k : Nat) := read8_boot_off (k := k) builds ok len
    obtain ⟨-, eq⟩ | ⟨image, some, -⟩ := column
    · refine ⟨?_, ?_, ?_, ?_, ?_, ?_, boot⟩
      case refine_2 => rw [eq, State.postBoot_f len]
      all_goals rw [eq]; rfl
    · rw [usableBootRom_of_ne unusable] at some
      cases some
  · rw [some, usableBootRom_of_eq usable] at builds warning
    refine ⟨warning, builds.bootMapped, ?_⟩
    have under (k : Nat) (hk : k < 256) := builds.read_rom (k := k) ok (by omega)
    obtain ⟨none, -⟩ | ⟨image, found, eq⟩ := column
    · rw [some, usableBootRom_of_eq usable] at none
      cases none
    · rw [some, usableBootRom_of_eq usable] at found
      obtain rfl := Option.some.inj found
      have boot (k : Nat) := read8_boot_on (k := k) builds (by rw [eq]; rfl) usable
      refine ⟨?_, ?_, ?_, ?_, ?_, ?_, boot, under⟩
      case refine_2 =>
        rw [eq]
        exact Flags.toByte_ofByte _
      all_goals rw [eq]; rfl

end Sys2Proof.Machine
end

section
/-! The background's pixels in the FIFO and on the line: what PixelTransfer draws (R424 to R428, R433). -/

namespace Sys2Proof.Machine

/-! ### The background -/

/-- The colour index of a pixel of the background: two planes of its tile's row (R426). -/
def State.bgIndex (s : State) (row col : Nat) : Shade :=
  let a := s.bgTileRow (s.bgTile row col) row
  tilePixel (s.mem.read (a + 1)) (s.mem.read a) (col % 8)

/-- A colour index is two bits, the high plane's and the low plane's. -/
theorem toNat_ofBool_append (h l : Bool) :
    (BitVec.ofBool h ++ BitVec.ofBool l).toNat = 2 * h.toNat + l.toNat := by
  revert h l
  decide

/-- A slot of BGP, bit by bit (R51). -/
theorem bgShade_eq (bgp : Byte) (i : Shade) :
    bgShade bgp i =
      BitVec.ofBool (bgp.getLsbD (2 * i.toNat + 1)) ++ BitVec.ofBool (bgp.getLsbD (2 * i.toNat)) := by
  revert bgp i
  decide

/-- The shade of a pixel is its colour index through BGP (R428). -/
theorem State.bgShade_bgIndex (s : State) (row col : Nat) :
    bgShade s.io.bgp (s.bgIndex row col) = s.bgPixel row col := by
  rw [bgShade_eq, State.bgIndex, tilePixel, toNat_ofBool_append]
  rfl

/-- The eight pixels of a column of tiles are one row of its tile. -/
theorem State.tileRow_eq {s : State} {row idx : Nat} {tile lo hi : Byte} (ht : tile = s.bgTile row (8 * idx))
    (hlo : lo = s.mem.read (s.bgTileRow tile row)) (hhi : hi = s.mem.read (s.bgTileRow tile row + 1)) :
    tileRow hi lo = (List.range' (8 * idx) 8).map (s.bgIndex row) := by
  rw [List.range'_eq_map_range, List.map_map, tileRow]
  refine List.map_congr_left fun k hk => ?_
  have small : k < 8 := List.mem_range.1 hk
  have column : (8 * idx + k) / 8 = 8 * idx / 8 ∧ (8 * idx + k) % 8 = k := by omega
  have tile' : s.bgTile row (8 * idx + k) = tile := by
    rw [ht, State.bgTile, State.bgTile, column.1]
  rw [Function.comp_apply, State.bgIndex, tile', column.2, hlo, hhi]

/-! ### The fetcher's addresses -/

theorem State.vram_tileMapAddr {s : State} (hly : s.io.ly.toNat < 144) (hidx : s.ppu.fetchIdx.toNat < 32) :
    s.vram s.tileMapAddr = s.bgTile s.io.ly.toNat (8 * s.ppu.fetchIdx.toNat) := by
  have addr : s.tileMapAddr.toNat = (if s.io.lcdc.getLsbD 3 then 0x9C00 else 0x9800) +
      32 * (s.io.ly.toNat / 8) + 8 * s.ppu.fetchIdx.toNat / 8 := by
    have cell : 32 * (s.io.ly.toNat / 8) + s.ppu.fetchIdx.toNat % 32 < 608 := by omega
    rw [State.tileMapAddr, BitVec.toNat_add, toNat_ofNat_of_lt (by omega)]
    split <;> simp only [BitVec.ofNat_eq_ofNat, BitVec.toNat_ofNat] <;> omega
  rw [State.vram, addr, State.bgTile]

/-- The two modes of addressing agree with the two halves of the tile data (R425). -/
theorem tileAddr_toNat (unsigned : Bool) (tile : Byte) :
    (if unsigned then 0x8000 + 16 * zext16 tile else 0x9000 + 16 * sext16 tile : Word).toNat =
      if unsigned then 0x8000 + 16 * tile.toNat
      else if tile.toNat < 128 then 0x9000 + 16 * tile.toNat else 0x8000 + 16 * tile.toNat := by
  revert unsigned tile
  decide

theorem State.tileRowAddr_toNat (s : State) :
    s.tileRowAddr.toNat = s.bgTileRow s.ppu.tileNo s.io.ly.toNat ∧
      (s.tileRowAddr + 1).toNat = s.bgTileRow s.ppu.tileNo s.io.ly.toNat + 1 := by
  have bounds := tileAddr_bounds (s.io.lcdc.getLsbD 4) s.ppu.tileNo
  have addr := tileAddr_toNat (s.io.lcdc.getLsbD 4) s.ppu.tileNo
  have row : s.io.ly.toNat % 8 < 8 := Nat.mod_lt _ (by decide)
  rw [State.bgTileRow, ← addr, State.tileRowAddr]
  generalize (if s.io.lcdc.getLsbD 4 then _ else _ : Word) = a at bounds
  generalize s.io.ly.toNat % 8 = r at row
  obtain ⟨-, high⟩ := bounds
  simp [BitVec.toNat_add]
  omega

/-! ### The line drawn so far -/

/-- What PixelTransfer has of the background between two of its ticks: the columns before `x` are in the
framebuffer, those up to the next tile's are in the FIFO, and the fetcher is at the next tile (R424 to
R428). -/
structure State.Draws (t : State) : Prop where
  count : t.ppu.x + t.ppu.fifo.length = 8 * t.ppu.fetchIdx.toNat
  fifo : t.ppu.fifo = (List.range' t.ppu.x t.ppu.fifo.length).map (t.bgIndex t.io.ly.toNat)
  tile : t.ppu.fstate ≠ .tileNumber → t.ppu.tileNo = t.bgTile t.io.ly.toNat (8 * t.ppu.fetchIdx.toNat)
  low : t.ppu.fstate = .tileDataHigh ∨ t.ppu.fstate = .pushToFifo →
    t.ppu.dataLo = t.mem.read (t.bgTileRow t.ppu.tileNo t.io.ly.toNat)
  high : t.ppu.fstate = .pushToFifo →
    t.ppu.dataHi = t.mem.read (t.bgTileRow t.ppu.tileNo t.io.ly.toNat + 1)
  front : ∀ col < t.ppu.x, t.ppu.front.read t.io.ly.toNat col = t.bgPixel t.io.ly.toNat col

/-- A step of the fetcher goes on with the line. -/
theorem State.Draws.fetcherStep {t : State} (h : t.Draws) (hly : t.io.ly.toNat < 144)
    (hidx : t.ppu.fetchIdx.toNat < 32) : t.fetcherStep.Draws := by
  obtain ⟨count, fifo, tile, low, high, front⟩ := h
  obtain ⟨rowLow, rowHigh⟩ := t.tileRowAddr_toNat
  cases state : t.ppu.fstate with
  | tileNumber =>
    rw [State.fetcherStep_tileNumber state]
    exact ⟨count, fifo, fun _ => State.vram_tileMapAddr hly hidx, by simp, by simp, front⟩
  | tileDataLow =>
    rw [State.fetcherStep_tileDataLow state]
    refine ⟨count, fifo, fun _ => tile (by simp [state]), fun _ => ?_, by simp, front⟩
    exact congrArg t.mem.read rowLow
  | tileDataHigh =>
    rw [State.fetcherStep_tileDataHigh state]
    refine ⟨count, fifo, fun _ => tile (by simp [state]), fun _ => low (.inl state), fun _ => ?_, front⟩
    exact congrArg t.mem.read rowHigh
  | pushToFifo =>
    by_cases room : t.ppu.fifo.length ≤ 8
    · rw [State.fetcherStep_pushes state room]
      have pixels := State.tileRow_eq (tile (by simp [state])) (low (.inr state)) (high state)
      have next : (t.ppu.fetchIdx + 1).toNat = t.ppu.fetchIdx.toNat + 1 := toNat_add_one_of_lt (by omega)
      refine ⟨?_, ?_, by simp, by simp, by simp, front⟩
      · dsimp only
        rw [List.length_append, tileRow_length, next]
        omega
      · dsimp only
        rw [List.length_append, tileRow_length, pixels, ← count, ← List.range'_append_1, List.map_append]
        exact congrArg (· ++ _) fifo
    · rw [State.fetcherStep_waits state (Nat.lt_of_not_le room)]
      exact ⟨count, fifo, tile, low, high, front⟩

theorem State.Draws.fetchTick {t : State} (h : t.Draws) (hly : t.io.ly.toNat < 144)
    (hidx : t.ppu.fetchIdx.toNat < 32) : t.fetchTick.Draws := by
  unfold State.fetchTick
  split
  · exact h.fetcherStep hly hidx
  · exact h

/-- A tick of PixelTransfer goes on with the line (R423). -/
theorem State.Draws.pixelTransferTick {t : State} (h : t.Draws) (hly : t.io.ly.toNat < 144)
    (hidx : t.ppu.fetchIdx.toNat < 32) (hx : t.ppu.x < 160) (wf : t.ppu.front.wf = true) :
    t.pixelTransferTick.Draws := by
  have ⟨count, fifo, tile, low, high, front⟩ := h.fetchTick hly hidx
  obtain few | ⟨i, rest, cons, many⟩ := t.fetchTick_fifo_cases
  · rw [State.pixelTransferTick_waits few]
    exact ⟨count, fifo, tile, low, high, front⟩
  · obtain ⟨io, -, x, front', -⟩ := t.fetchTick_fetcherOnly.fields
    have length : t.fetchTick.ppu.fifo.length = rest.length + 1 := by rw [cons, List.length_cons]
    rw [State.pixelTransferTick_outputs cons many, ← x, ← io, ← front']
    rw [length, cons, List.range'_succ, List.map_cons] at fifo
    injection fifo with first others
    rw [← front'] at wf
    rw [← x] at hx
    refine ⟨?_, others, tile, low, high, fun col hcol => ?_⟩
    · dsimp only
      omega
    · obtain hlt | heq := Nat.lt_succ_iff_lt_or_eq.1 hcol
      · exact (Frame.read_write_other wf _ hx (hlt.trans hx) (.inr (Nat.ne_of_lt hlt))).trans (front col hlt)
      · subst heq
        rw [Frame.read_write_same wf, first]
        exact t.fetchTick.bgShade_bgIndex _ _

end Sys2Proof.Machine
end

section
/-! A visible line, tick by tick, with the PPU alone running (R422 to R430, R433, R492). -/

namespace Sys2Proof.Machine

/-! ### The LCD running -/

/-- The LCD is on and stays on, between two ticks. -/
structure State.Running (t : State) : Prop where
  lcdc : t.io.lcdc.getLsbD 7 = true
  on : t.ppu.lcdOn = true
  engine : t.engineOk = true
  wf : t.ppu.front.wf = true

theorem State.Running.tick {t : State} (run : t.Running) : t.tick.Running := by
  obtain ⟨on, len, x, line, front, -⟩ := State.modeTicked run.on run.engine
  obtain ⟨lcdc, -⟩ := t.tick_only.io
  refine ⟨lcdc ▸ run.lcdc, ?_, State.engineOk_of_ppuOk (State.tick_ppuOk_of_on run.engine run.lcdc).1, ?_⟩
  · rw [State.tick_on run.lcdc run.on, State.statUpdate_lcdOn]
    exact on
  · rw [State.tick_on run.lcdc run.on, State.statUpdate_front]
    exact front run.wf

/-- On a visible line the tick of the line gives the mode. -/
theorem State.Running.mode {t : State} (run : t.Running) (hly : t.io.ly.toNat < 144) :
    t.ppu.mode = if t.ppu.lineTick < 80 then .oamSearch else if t.ppu.lineTick < 255 then .pixelTransfer
      else .hblank := by
  obtain ⟨-, -, line⟩ := (State.engineOk_iff_of_on run.on).1 run.engine
  cases mode : t.ppu.mode with
  | oamSearch =>
    obtain ⟨-, early⟩ := (State.lineOk_oamSearch mode).1 line
    rw [if_pos early]
  | pixelTransfer =>
    obtain ⟨-, low, high, -⟩ := (State.lineOk_pixelTransfer mode).1 line
    rw [if_neg (Nat.not_lt_of_le low), if_pos high]
  | hblank =>
    obtain ⟨-, low, -⟩ := (State.lineOk_hblank mode).1 line
    rw [if_neg (by omega), if_neg (by omega)]
  | vblank =>
    obtain ⟨low, -⟩ := (State.lineOk_vblank mode).1 line
    omega

/-- All through PixelTransfer columns are left to draw, and the fetcher is in the first 22 tiles. -/
theorem State.Running.pace_bounds {t : State} (run : t.Running) (mode : t.ppu.mode = .pixelTransfer) :
    t.ppu.x < 160 ∧ t.ppu.fetchIdx.toNat < 32 := by
  obtain ⟨-, -, line⟩ := (State.engineOk_iff_of_on run.on).1 run.engine
  obtain ⟨-, low, high, pace⟩ := (State.lineOk_pixelTransfer mode).1 line
  obtain ⟨-, x, atEnd, idx⟩ := Pace.after_bounds (n := t.ppu.lineTick - 80) (by omega)
  rw [← pace] at x atEnd idx
  have xs : t.ppu.pace.x = t.ppu.x := rfl
  have is : t.ppu.pace.fetchIdx = t.ppu.fetchIdx := rfl
  rw [xs] at x atEnd
  rw [is] at idx
  omega

/-! ### A tick inside a line -/

/-- `u` is one tick further on the line of `t`. -/
structure State.LineStep (t u : State) : Prop where
  tick : u.ppu.lineTick = t.ppu.lineTick + 1
  ly : u.io.ly = t.io.ly
  back : u.ppu.back = t.ppu.back
  ready : u.ppu.frameReady = t.ppu.frameReady
  rows : ∀ row col, row ≠ t.io.ly.toNat → col < 160 → u.ppu.front.read row col = t.ppu.front.read row col
  front : t.ppu.mode ≠ .pixelTransfer → u.ppu.front = t.ppu.front

/-- StatUpdate is no part of the line. -/
theorem State.LineStep.statUpdate {t u : State} (h : t.LineStep u) : t.LineStep u.statUpdate := by
  obtain ⟨tick, ly, back, ready, rows, front⟩ := h
  rw [State.statUpdate_eq rfl]
  exact ⟨tick, ly, back, ready, rows, front⟩

theorem State.lineStep_countTick (t : State) : t.LineStep t.countTick :=
  ⟨rfl, rfl, rfl, rfl, fun _ _ _ _ => rfl, fun _ => rfl⟩

/-- A pixel goes to the line's row alone. -/
theorem State.pixelTransferTick_rows {s : State} (hx : s.ppu.x < 160) (wf : s.ppu.front.wf = true)
    {row col : Nat} (other : row ≠ s.io.ly.toNat) (hcol : col < 160) :
    s.pixelTransferTick.ppu.front.read row col = s.ppu.front.read row col := by
  obtain ⟨-, -, -, front, -⟩ := s.fetchTick_fetcherOnly.fields
  obtain few | ⟨i, rest, cons, many⟩ := s.fetchTick_fifo_cases
  · rw [State.pixelTransferTick_waits few]
    exact congrArg (Frame.read · row col) front
  · rw [State.pixelTransferTick_outputs cons many]
    exact Frame.read_write_other wf _ hx hcol (.inl other)

/-- A tick before the last of its line. -/
theorem State.Running.lineStep {t : State} (run : t.Running) (inner : t.ppu.lineTick + 1 < 456) :
    t.LineStep t.tick := by
  obtain ⟨search, hblank, vblank⟩ := lineAndFrameEnds t run.lcdc run.on
  have before : ¬ t.ppu.lineTick + 1 = 456 := by omega
  cases mode : t.ppu.mode with
  | oamSearch =>
    rw [search mode]
    refine State.LineStep.statUpdate ?_
    split
    · next last => exact ⟨last.symm, rfl, rfl, rfl, fun _ _ _ _ => rfl, fun _ => rfl⟩
    · exact t.lineStep_countTick
  | pixelTransfer =>
    obtain ⟨hx, -⟩ := run.pace_bounds mode
    obtain ⟨tick, -, io, back, ready, -⟩ :=
      State.pixelTransferTick_keeps (s := t.countTick) (Nat.ne_of_lt hx) mode
    rw [State.tick_on run.lcdc run.on, State.modeTick_pixelTransfer (s := t.countTick) mode]
    refine State.LineStep.statUpdate ⟨tick, congrArg IoRegs.ly io, back, ready, fun row col other hcol => ?_,
      fun other => absurd mode other⟩
    exact State.pixelTransferTick_rows (s := t.countTick) hx run.wf other hcol
  | hblank =>
    rw [hblank mode, if_neg before]
    exact t.lineStep_countTick.statUpdate
  | vblank =>
    rw [vblank mode, if_neg before]
    exact t.lineStep_countTick.statUpdate

/-! ### The drawing, tick by tick -/

theorem State.Draws.statUpdate {t : State} (h : t.Draws) : t.statUpdate.Draws := by
  obtain ⟨count, fifo, tile, low, high, front⟩ := h
  rw [State.statUpdate_eq rfl]
  exact ⟨count, fifo, tile, low, high, front⟩

/-- The last tick of the search leaves an empty line to draw (R422). -/
theorem State.Running.draws_first {t : State} (run : t.Running) (mode : t.ppu.mode = .oamSearch)
    (last : t.ppu.lineTick + 1 = 80) : t.tick.Draws := by
  rw [(lineAndFrameEnds t run.lcdc run.on).1 mode, if_pos last]
  exact State.Draws.statUpdate ⟨rfl, rfl, nofun, by simp, nofun, nofun⟩

theorem State.Running.draws_next {t : State} (run : t.Running) (mode : t.ppu.mode = .pixelTransfer)
    (hly : t.io.ly.toNat < 144) (h : t.Draws) :
    t.tick.Draws ∧ (t.tick.ppu.mode = .hblank → t.tick.ppu.x = 160) := by
  obtain ⟨hx, idx⟩ := run.pace_bounds mode
  obtain ⟨-, -, -, -, -, -, mode'⟩ := State.pixelTransferTick_keeps (s := t.countTick) (Nat.ne_of_lt hx) mode
  have counted : t.countTick.Draws := by
    obtain ⟨count, fifo, tile, low, high, front⟩ := h
    exact ⟨count, fifo, tile, low, high, front⟩
  rw [State.tick_on run.lcdc run.on, State.modeTick_pixelTransfer (s := t.countTick) mode]
  refine ⟨(counted.pixelTransferTick hly idx hx run.wf).statUpdate, fun ends => ?_⟩
  rw [State.statUpdate_mode, mode'] at ends
  have x : t.countTick.pixelTransferTick.statUpdate.ppu.x = t.countTick.pixelTransferTick.ppu.x :=
    congrArg Pace.x (State.statUpdate_pace _)
  rw [x]
  by_contra more
  rw [if_neg more] at ends
  cases ends

/-! ### The line -/

/-- The picture is made from what no tick changes. -/
theorem PpuOnly.bgPixel {s t : State} (h : PpuOnly s t) (row col : Nat) :
    t.bgPixel row col = s.bgPixel row col := by
  unfold PpuOnly at h
  rw [h]
  rfl

/-- `t` is at line tick `k` of the visible line that began at `s`. -/
structure State.LineAt (s : State) (k : Nat) (t : State) : Prop where
  only : PpuOnly s t
  run : t.Running
  tick : t.ppu.lineTick = k
  ly : t.io.ly = s.io.ly
  back : t.ppu.back = s.ppu.back
  ready : t.ppu.frameReady = s.ppu.frameReady
  rows : ∀ row col, row ≠ s.io.ly.toNat → col < 160 → t.ppu.front.read row col = s.ppu.front.read row col
  draws : 80 ≤ k → k < 255 → t.Draws
  drawn : 255 ≤ k → ∀ col < 160, t.ppu.front.read s.io.ly.toNat col = s.bgPixel s.io.ly.toNat col

theorem State.LineAt.mode {s t : State} {k : Nat} (h : s.LineAt k t) (hly : s.io.ly.toNat < 144) :
    t.ppu.mode = if k < 80 then .oamSearch else if k < 255 then .pixelTransfer else .hblank := by
  rw [← h.tick]
  exact h.run.mode (h.ly ▸ hly)

theorem State.LineAt.next {s t : State} {k : Nat} (h : s.LineAt k t) (hly : s.io.ly.toNat < 144)
    (hk : k + 1 < 456) : s.LineAt (k + 1) t.tick := by
  have hly' : t.io.ly.toNat < 144 := h.ly ▸ hly
  have mode := h.mode hly
  have ⟨tick, ly, back, ready, rows, front⟩ := h.run.lineStep (by rw [h.tick]; exact hk)
  have only := h.only.trans t.tick_only
  have mode' := h.run.tick.mode (ly ▸ hly')
  rw [h.tick] at tick
  rw [tick] at mode'
  rw [h.ly] at rows
  refine ⟨only, h.run.tick, tick, ly.trans h.ly, back.trans h.back, ready.trans h.ready,
    fun row col other hcol => (rows row col other hcol).trans (h.rows row col other hcol), fun low high => ?_,
    fun low col hcol => ?_⟩
  · by_cases first : k < 80
    · rw [if_pos first] at mode
      exact h.run.draws_first mode (by rw [h.tick]; omega)
    · rw [if_neg first, if_pos (by omega)] at mode
      exact (h.run.draws_next mode hly' (h.draws (by omega) (by omega))).1
  · by_cases last : k < 255
    · rw [if_neg (by omega), if_pos last] at mode
      rw [if_neg (by omega), if_neg (by omega)] at mode'
      obtain ⟨draws, full⟩ := h.run.draws_next mode hly' (h.draws (by omega) last)
      have pixel := draws.front col (by rw [full mode']; exact hcol)
      rwa [ly, h.ly, only.bgPixel] at pixel
    · rw [if_neg (by omega), if_neg last] at mode
      rw [front (by simp [mode])]
      exact h.drawn (by omega) col hcol

/-- A visible line begins. -/
structure State.Begun (s : State) : Prop where
  run : s.Running
  search : s.ppu.mode = .oamSearch
  tick : s.ppu.lineTick = 0

theorem State.Begun.visible {s : State} (h : s.Begun) : s.io.ly.toNat < 144 := by
  obtain ⟨-, -, line⟩ := (State.engineOk_iff_of_on h.run.on).1 h.run.engine
  exact ((State.lineOk_oamSearch h.search).1 line).1

theorem State.Begun.lineAt {s : State} (h : s.Begun) {k : Nat} (hk : k < 456) : s.LineAt k (s.ticks k) := by
  induction k with
  | zero =>
    exact ⟨.refl s, h.run, h.tick, rfl, rfl, rfl, fun _ _ _ _ => rfl, fun low => absurd low (by decide),
      fun low => absurd low (by decide)⟩
  | succ k ih =>
    rw [State.ticks_succ]
    exact (ih (by omega)).next h.visible hk

/-! ### The ends of a line -/

/-- The next line begins, in a mode (R430, R432). -/
def State.nextLine (t : State) (mode : Mode) : State := State.statUpdate
  { t with io := { t.io with ly := t.io.ly + 1 }, ppu := { t.ppu with lineTick := 0, mode := mode } }

/-- VBlank begins after line 143 (R431). -/
def State.enterVblank (t : State) : State := State.statUpdate
  { t with
    io := { t.io with ly := 144, iflag := t.io.iflag ||| 1 },
    ppu := { t.ppu with lineTick := 0, back := t.ppu.front, front := [], frameReady := true, mode := .vblank } }

theorem State.statUpdate_back (s : State) : s.statUpdate.ppu.back = s.ppu.back := by
  unfold State.statUpdate
  dsimp only
  split <;> rfl

theorem State.statUpdate_frameReady (s : State) : s.statUpdate.ppu.frameReady = s.ppu.frameReady := by
  unfold State.statUpdate
  dsimp only
  split <;> rfl

/-- A request of STAT's keeps the one of VBlank. -/
theorem State.statUpdate_iflag_zero {s : State} (h : s.io.iflag.getLsbD 0 = true) :
    s.statUpdate.io.iflag.getLsbD 0 = true := by
  rw [State.statUpdate_eq (s := s) rfl]
  dsimp only
  split
  · rw [BitVec.getLsbD_or, h]
    rfl
  · exact h

theorem State.nextLine_fields (t : State) (mode : Mode) :
    (t.nextLine mode).io.ly = t.io.ly + 1 ∧ (t.nextLine mode).ppu.mode = mode ∧
      (t.nextLine mode).ppu.lineTick = 0 ∧ (t.nextLine mode).ppu.back = t.ppu.back ∧
      (t.nextLine mode).ppu.frameReady = t.ppu.frameReady ∧ (t.nextLine mode).ppu.front = t.ppu.front :=
  ⟨State.statUpdate_ly _, State.statUpdate_mode _, State.statUpdate_lineTick _, State.statUpdate_back _,
    State.statUpdate_frameReady _, State.statUpdate_front _⟩

theorem State.enterVblank_fields (t : State) :
    t.enterVblank.io.ly = 144 ∧ t.enterVblank.ppu.mode = .vblank ∧ t.enterVblank.ppu.lineTick = 0 ∧
      t.enterVblank.ppu.back = t.ppu.front ∧ t.enterVblank.ppu.frameReady = true ∧
      t.enterVblank.io.iflag.getLsbD 0 = true := by
  refine ⟨State.statUpdate_ly _, State.statUpdate_mode _, State.statUpdate_lineTick _, State.statUpdate_back _,
    State.statUpdate_frameReady _, State.statUpdate_iflag_zero ?_⟩
  rw [BitVec.getLsbD_or]
  exact Bool.or_true _

/-- The last tick of a visible line (R430, R431). -/
theorem State.LineAt.end {s t : State} (h : s.LineAt 455 t) (hly : s.io.ly.toNat < 144) :
    t.tick = if s.io.ly + 1 = 144 then t.enterVblank else t.nextLine .oamSearch := by
  rw [(lineAndFrameEnds t h.run.lcdc h.run.on).2.1 (h.mode hly), if_pos (congrArg (· + 1) h.tick), h.ly]
  split
  · rfl
  · rw [State.nextLine, h.ly]

theorem State.Begun.lineEnd {s : State} (h : s.Begun) : s.ticks 456 =
    if s.io.ly + 1 = 144 then (s.ticks 455).enterVblank else (s.ticks 455).nextLine .oamSearch := by
  rw [State.ticks_succ]
  exact (h.lineAt (by decide)).end h.visible

theorem State.Begun.run_lineEnd {s : State} (h : s.Begun) : (s.ticks 456).Running := by
  rw [State.ticks_succ]
  exact (h.lineAt (k := 455) (by decide)).run.tick

/-- A visible line begins in a state that meets O54's premises. -/
theorem State.Begun.of_ppuOk {s : State} (hs : s.storageOk = true) (hp : s.ppuOk = true)
    (on : s.ppu.lcdOn = true) (search : s.ppu.mode = .oamSearch) (tick : s.ppu.lineTick = 0) : s.Begun := by
  obtain ⟨-, -, front, -⟩ := State.storageOk_iff.1 hs
  have engine := State.engineOk_of_ppuOk hp
  rw [State.ppuOk, Bool.and_eq_true, Bool.and_eq_true] at hp
  exact ⟨⟨(of_decide_eq_true hp.1.2).symm.trans on, on, engine, front⟩, search, tick⟩

/-- Settles O54: `LineAt` holds at every tick of the line, by induction on the tick, and the last tick is
`lineEnd`. -/
theorem lineDrawsItsRow : Obligations.LineDrawsItsRow := by
  unfold Obligations.LineDrawsItsRow
  intro s hs hp on search tick
  have begun := State.Begun.of_ppuOk hs hp on search tick
  have mode (k : Nat) (hk : k < 456) := (begun.lineAt hk).mode begun.visible
  have last := begun.lineAt (k := 455) (by decide)
  refine ⟨fun k _ hk => ?_, fun k low hk => ?_, fun k low hk => ?_, fun k hk => ?_, last.drawn (by decide),
    fun row _ other col hcol => last.rows row col other hcol, ?_, ?_, ?_⟩
  · rw [mode k (by omega), if_pos hk]
  · rw [mode k (by omega), if_neg (by omega), if_pos hk]
  · rw [mode k hk, if_neg (by omega), if_neg (by omega)]
  · exact ⟨(begun.lineAt hk).tick, (begun.lineAt hk).ly⟩
  all_goals rw [begun.lineEnd]
  · split
    exacts [(State.enterVblank_fields _).2.2.1, (State.nextLine_fields _ _).2.2.1]
  · split
    · next entry => exact (State.enterVblank_fields _).1.trans entry.symm
    · exact (State.nextLine_fields _ _).1.trans (congrArg (· + 1) last.ly)
  · split
    exacts [(State.enterVblank_fields _).2.1, (State.nextLine_fields _ _).2.1]

end Sys2Proof.Machine
end

section
/-! A frame: 144 visible lines and 10 of VBlank, with the PPU alone running (R430 to R433). -/

namespace Sys2Proof.Machine

/-! ### The visible lines -/

/-- `u` begins line `n` of the frame that began at `s`: the rows before it are the background's. -/
structure State.FrameAt (s : State) (n : Nat) (u : State) : Prop where
  only : PpuOnly s u
  begun : u.Begun
  ly : u.io.ly.toNat = n
  back : u.ppu.back = s.ppu.back
  ready : u.ppu.frameReady = s.ppu.frameReady
  drawn : ∀ row < n, ∀ col < 160, u.ppu.front.read row col = s.bgPixel row col

/-- The rows drawn by the end of line `n`. -/
theorem State.FrameAt.rows {s u : State} {n : Nat} (h : s.FrameAt n u) :
    ∀ row < n + 1, ∀ col < 160, (u.ticks 455).ppu.front.read row col = s.bgPixel row col := by
  intro row hrow col hcol
  have last := h.begun.lineAt (k := 455) (by decide)
  obtain before | this := Nat.lt_succ_iff_lt_or_eq.1 hrow
  · rw [last.rows row col (by rw [h.ly]; omega) hcol]
    exact h.drawn row before col hcol
  · rw [this, ← h.ly, last.drawn (by decide) col hcol]
    exact h.only.bgPixel _ _

/-- LY of the next line. -/
theorem State.FrameAt.nextLy {s u : State} {n : Nat} (h : s.FrameAt n u) :
    (u.io.ly + 1).toNat = n + 1 ∧ (u.io.ly + 1 = 144 ↔ n = 143) := by
  have visible := h.begun.visible
  have next := toNat_add_one_of_lt (b := u.io.ly) (by omega)
  rw [h.ly] at next
  refine ⟨next, fun h144 => ?_, fun last => BitVec.eq_of_toNat_eq ?_⟩
  · have := congrArg BitVec.toNat h144
    rw [next] at this
    simpa using this
  · rw [next, last]
    rfl

/-- A visible line but the last is followed by the next one. -/
theorem State.FrameAt.next {s u : State} {n : Nat} (h : s.FrameAt n u) (hn : n < 143) :
    s.FrameAt (n + 1) (u.ticks 456) := by
  have last := h.begun.lineAt (k := 455) (by decide)
  obtain ⟨nextLy, entry⟩ := h.nextLy
  have lineEnd := h.begun.lineEnd
  rw [if_neg (fun e => by have := entry.1 e; omega)] at lineEnd
  obtain ⟨ly, mode, tick, back, ready, front⟩ := (u.ticks 455).nextLine_fields .oamSearch
  rw [← lineEnd] at ly mode tick back ready front
  rw [last.ly] at ly
  refine ⟨h.only.trans (u.ticks_only 456), ⟨h.begun.run_lineEnd, mode, tick⟩,
    (congrArg BitVec.toNat ly).trans nextLy, (back.trans last.back).trans h.back,
    (ready.trans last.ready).trans h.ready, fun row hrow col hcol => ?_⟩
  rw [front]
  exact h.rows row hrow col hcol

/-- The first tick of every visible line. -/
theorem State.Begun.frameAt {s : State} (h : s.Begun) (first : s.io.ly = 0) {n : Nat} (hn : n < 144) :
    s.FrameAt n (s.ticks (456 * n)) := by
  induction n with
  | zero =>
    refine ⟨.refl s, h, ?_, rfl, rfl, nofun⟩
    rw [Nat.mul_zero, State.ticks, first]
    rfl
  | succ n ih =>
    rw [Nat.mul_succ, State.ticks_add]
    exact (ih (by omega)).next (by omega)

/-- Until VBlank begins no frame becomes ready. -/
theorem State.Begun.notReady {s : State} (h : s.Begun) (first : s.io.ly = 0) {k : Nat} (hk : k < 65664) :
    (s.ticks k).ppu.frameReady = s.ppu.frameReady ∧ (s.ticks k).ppu.back = s.ppu.back := by
  have line := h.frameAt first (n := k / 456) (by omega)
  have inLine := line.begun.lineAt (k := k % 456) (Nat.mod_lt k (by decide))
  have split : s.ticks k = (s.ticks (456 * (k / 456))).ticks (k % 456) := by
    rw [← State.ticks_add, Nat.div_add_mod]
  rw [split]
  exact ⟨inLine.ready.trans line.ready, inLine.back.trans line.back⟩

/-! ### VBlank -/

/-- VBlank begins (R431): the frame is in the back buffer, the request is made. -/
theorem State.FrameAt.vblank {s u : State} (h : s.FrameAt 143 u) :
    (u.ticks 456).Running ∧ (u.ticks 456).io.ly = 144 ∧ (u.ticks 456).ppu.mode = .vblank ∧
      (u.ticks 456).ppu.lineTick = 0 ∧ (u.ticks 456).ppu.frameReady = true ∧
      (u.ticks 456).io.iflag.getLsbD 0 = true ∧
      ∀ row < 144, ∀ col < 160, (u.ticks 456).ppu.back.read row col = s.bgPixel row col := by
  have lineEnd := h.begun.lineEnd
  rw [if_pos (h.nextLy.2.2 rfl)] at lineEnd
  obtain ⟨ly, mode, tick, back, ready, request⟩ := (u.ticks 455).enterVblank_fields
  rw [← lineEnd] at ly mode tick back ready request
  refine ⟨h.begun.run_lineEnd, ly, mode, tick, ready, request, fun row hrow col hcol => ?_⟩
  rw [back]
  exact h.rows row hrow col hcol

theorem State.ticks_toVblank (s : State) : s.ticks 65664 = (s.ticks (456 * 143)).ticks 456 :=
  s.ticks_add (456 * 143) 456

/-- `t` is at line tick `k` of a line of VBlank. -/
structure State.VblankAt (ly : Byte) (back : Frame) (k : Nat) (t : State) : Prop where
  run : t.Running
  mode : t.ppu.mode = .vblank
  ly : t.io.ly = ly
  tick : t.ppu.lineTick = k
  back : t.ppu.back = back

theorem State.VblankAt.ticks {ly : Byte} {back : Frame} {t : State} (h : t.VblankAt ly back 0) {k : Nat}
    (hk : k < 456) : (t.ticks k).VblankAt ly back k := by
  induction k with
  | zero => exact h
  | succ k ih =>
    obtain ⟨run, mode, ly, tick, back⟩ := ih (by omega)
    have step := run.lineStep (by omega)
    have line := (lineAndFrameEnds _ run.lcdc run.on).2.2 mode
    rw [if_neg (by omega)] at line
    rw [State.ticks_succ]
    refine ⟨run.tick, ?_, step.ly.trans ly, step.tick.trans (congrArg (· + 1) tick), step.back.trans back⟩
    rw [line, State.statUpdate_mode]
    exact mode

/-- Line 0 begins after line 153 (R432). -/
def State.nextFrame (t : State) : State := State.statUpdate
  { t with io := { t.io with ly := 0 }, ppu := { t.ppu with lineTick := 0, mode := .oamSearch } }

theorem State.nextFrame_fields (t : State) :
    t.nextFrame.io.ly = 0 ∧ t.nextFrame.ppu.mode = .oamSearch ∧ t.nextFrame.ppu.lineTick = 0 ∧
      t.nextFrame.ppu.back = t.ppu.back :=
  ⟨State.statUpdate_ly _, State.statUpdate_mode _, State.statUpdate_lineTick _, State.statUpdate_back _⟩

/-- The last tick of a line of VBlank. -/
theorem State.VblankAt.end {ly : Byte} {back : Frame} {t : State} (h : t.VblankAt ly back 455) :
    t.tick = if ly = 153 then t.nextFrame else t.nextLine .vblank := by
  rw [(lineAndFrameEnds t h.run.lcdc h.run.on).2.2 h.mode, if_pos (congrArg (· + 1) h.tick), h.ly]
  split
  · rfl
  · rw [State.nextLine, ← h.mode, h.ly]

theorem State.VblankAt.next {ly : Byte} {back : Frame} {t : State} (h : t.VblankAt ly back 455)
    (inner : ly ≠ 153) :
    t.tick.VblankAt (ly + 1) back 0 := by
  obtain ⟨ly', mode, tick, back', -⟩ := t.nextLine_fields .vblank
  have last := h.end
  rw [if_neg inner] at last
  rw [← last] at ly' mode tick back'
  rw [h.ly] at ly'
  exact ⟨h.run.tick, mode, ly', tick, back'.trans h.back⟩

theorem State.VblankAt.frameEnd {back : Frame} {t : State} (h : t.VblankAt 153 back 455) :
    t.tick.io.ly = 0 ∧ t.tick.ppu.mode = .oamSearch ∧ t.tick.ppu.lineTick = 0 ∧ t.tick.ppu.back = back := by
  rw [h.end, if_pos rfl, ← h.back]
  exact t.nextFrame_fields

/-- The lines of VBlank. -/
theorem State.VblankAt.lines {back : Frame} {t : State} (h : t.VblankAt 144 back 0) {n : Nat} (hn : n < 10) :
    (t.ticks (456 * n)).VblankAt (144 + .ofNat 8 n) back 0 := by
  induction n with
  | zero => exact h
  | succ n ih =>
    have inner : (144 + BitVec.ofNat 8 n : Byte) ≠ 153 := by
      have lines : ∀ n < 9, (144 + BitVec.ofNat 8 n : Byte) ≠ 153 := by decide
      exact lines n (by omega)
    rw [Nat.mul_succ, State.ticks_add, State.ticks_succ, BitVec.ofNat_add n 1, ← BitVec.add_assoc]
    exact ((ih (by omega)).ticks (by decide)).next inner

/-- The ten lines of VBlank end with line 0, and keep the frame. -/
theorem State.VblankAt.whole {back : Frame} {t : State} (h : t.VblankAt 144 back 0) :
    (t.ticks 4560).io.ly = 0 ∧ (t.ticks 4560).ppu.mode = .oamSearch ∧ (t.ticks 4560).ppu.lineTick = 0 ∧
      (t.ticks 4560).ppu.back = back := by
  have whole : t.ticks 4560 = (t.ticks (456 * 9)).ticks 456 := t.ticks_add (456 * 9) 456
  rw [whole, State.ticks_succ]
  exact ((h.lines (n := 9) (by decide)).ticks (k := 455) (by decide)).frameEnd

/-- Settles O55: the visible lines one by one, then those of VBlank, each by its last tick. -/
theorem frameShowsBackground : Obligations.FrameShowsBackground := by
  unfold Obligations.FrameShowsBackground
  intro s hs hp on search tick first
  have begun := State.Begun.of_ppuOk hs hp on search tick
  have line := begun.frameAt first (n := 143) (by decide)
  obtain ⟨run, ly, mode, lineTick, ready, request, picture⟩ := line.vblank
  rw [← State.ticks_toVblank] at run ly mode lineTick ready request picture
  have whole : s.ticks 70224 = (s.ticks 65664).ticks 4560 := s.ticks_add 65664 4560
  rw [whole]
  have final := State.VblankAt.whole ⟨run, mode, ly, lineTick, Eq.refl _⟩
  exact ⟨fun k hk => begun.notReady first hk, ly, mode, ready, request, picture, final⟩

end Sys2Proof.Machine
end
